-- ==== Sys2Proof/Word.lean ====
section
/-! DEFINITION. The data types of spec/00_scope.md R11 and the sizes of R7: bytes, bus words, blocks, the S-box
table, the expanded key schedule, and window offsets. -/

namespace Sys2Proof

/-- An 8-bit unsigned value, also an element of GF(2^8) (R11, R130). -/
abbrev Byte := BitVec 8

/-- A 32-bit bus word or command word (R11, R100). -/
abbrev Word32 := BitVec 32

/-- A window offset: the window has 0x400 bytes (R79), so ten bits name every byte of it. -/
abbrev Offset := BitVec 10

/-- A sequence of 16 bytes; byte `r + 4*c` is row `r`, column `c` of the 4×4 matrix (R11). -/
abbrev Block := Vector Byte 16

/-- The ExpandedKeySchedule: 176 bytes, eleven round keys of 16 bytes (R7, R34). -/
abbrev Schedule := Vector Byte 176

/-- The S-box: 256 bytes, indexed by byte value (R7, R32). -/
abbrev SboxTable := Vector Byte 256

/-- Four consecutive bytes, byte 0 first: a "4-byte word" of the key schedule (R173) or a column of the State (R192). -/
structure Quad where
  b0 : Byte
  b1 : Byte
  b2 : Byte
  b3 : Byte
  deriving DecidableEq, Repr

end Sys2Proof
end

