-- ==== Sys2Proof/Syntax.lean ====
section
/-! DEFINITION. The commands of spec/30_encoding.md R104, one constructor per row of spec/opcode_table.json. -/

namespace Sys2Proof

/-- A command (R104). `A` and `B` are field elements, used as they stand (R103). `N` is a round-key index, a
number: its encodable range is 0..15, of which 11..15 are "well formed but raise RANGE when executed" (R103). -/
inductive Instr where
  /-- OP 0x00, F0 (44_block_encrypt.md R225). -/
  | nop
  /-- OP 0x01, F0 (42_key_schedule.md R176). -/
  | ldkey
  /-- OP 0x02, F0 (44_block_encrypt.md R224). -/
  | enc
  /-- OP 0x03, F0 (42_key_schedule.md R177). -/
  | clrkey
  /-- OP 0x10, FA (40_gf_arith.md R137). -/
  | gmul2 (a : Byte)
  /-- OP 0x11, FA (40_gf_arith.md R138). -/
  | gmul3 (a : Byte)
  /-- OP 0x12, FAB (40_gf_arith.md R139). -/
  | gmul (a b : Byte)
  /-- OP 0x13, FA (41_sbox.md R159). -/
  | sboxlu (a : Byte)
  /-- OP 0x20, F0 (43_round_ops.md R200). -/
  | ldst
  /-- OP 0x21, F0 (43_round_ops.md R201). -/
  | subb
  /-- OP 0x22, F0 (43_round_ops.md R202). -/
  | shrow
  /-- OP 0x23, F0 (43_round_ops.md R203). -/
  | mixcol
  /-- OP 0x24, FN (43_round_ops.md R204). -/
  | addrk (n : Nat)
  /-- OP 0x25, F0 (43_round_ops.md R205). -/
  | stst
  deriving DecidableEq, Repr

end Sys2Proof
end

