-- ==== Sys2Proof/WellFormed.lean ====
section
/-! DEFINITION. Which commands have an encoding (spec/30_encoding.md R103), and which of them the assembler
accepts (R109). -/

namespace Sys2Proof

/-- A command that a command word can carry: `N` is "an unsigned 4-bit round-key index" (R103). The byte operands
are bytes by their type. -/
def Instr.wellFormed : Instr → Bool
  | .nop => true
  | .ldkey => true
  | .enc => true
  | .clrkey => true
  | .gmul2 _ => true
  | .gmul3 _ => true
  | .gmul _ _ => true
  | .sboxlu _ => true
  | .ldst => true
  | .subb => true
  | .shrow => true
  | .mixcol => true
  | .addrk n => n < 16
  | .stst => true

/-- A command the assembler accepts: it "refuses ... an `N` above 10" (R109). -/
def Instr.assemblable : Instr → Bool
  | .nop => true
  | .ldkey => true
  | .enc => true
  | .clrkey => true
  | .gmul2 _ => true
  | .gmul3 _ => true
  | .gmul _ _ => true
  | .sboxlu _ => true
  | .ldst => true
  | .subb => true
  | .shrow => true
  | .mixcol => true
  | .addrk n => n ≤ 10
  | .stst => true

end Sys2Proof
end

