-- ==== Sys2Proof/Decode.lean ====
section
/-! DEFINITION. Command decoding and encoding (spec/30_encoding.md R100 to R106), and the opcode map as the
match and mask rows of spec/opcode_table.json. -/

namespace Sys2Proof

/-! ## Fields (R101) -/

/-- OP, `w[7:0]`. -/
def opField (w : Word32) : Byte := w.extractLsb' 0 8

/-- A, `w[15:8]`. -/
def aField (w : Word32) : Byte := w.extractLsb' 8 8

/-- B, `w[23:16]`. -/
def bField (w : Word32) : Byte := w.extractLsb' 16 8

/-- N, `w[11:8]`, the round-key index. -/
def nField (w : Word32) : Nat := (w.extractLsb' 8 4).toNat

/-! ## Formats (R102) -/

/-- The four command formats (R102). -/
inductive Format where
  | f0
  | fa
  | fab
  | fn
  deriving DecidableEq, Repr

/-- The bits that "must be zero" in a format (R102). -/
def mustBeZeroMask : Format → Word32
  | .f0 => 0xFFFFFF00#32
  | .fa => 0xFFFF0000#32
  | .fab => 0xFF000000#32
  | .fn => 0xFFFFF000#32

/-- The format of each command (R104). -/
def Instr.format : Instr → Format
  | .nop => .f0
  | .ldkey => .f0
  | .enc => .f0
  | .clrkey => .f0
  | .gmul2 _ => .fa
  | .gmul3 _ => .fa
  | .gmul _ _ => .fab
  | .sboxlu _ => .fa
  | .ldst => .f0
  | .subb => .f0
  | .shrow => .f0
  | .mixcol => .f0
  | .addrk _ => .fn
  | .stst => .f0

/-! ## Decoding (R105) -/

/-- Why a word is no command (R106): both raise ILLEGAL. -/
inductive DecodeReject where
  /-- OP is not in the map of R104 (R106 (a)). -/
  | undefinedOp
  /-- OP is defined and one of its must-be-zero bits is 1 (R106 (b)). -/
  | mustBeZeroBit
  deriving DecidableEq, Repr

/-- The command `i`, if the word's must-be-zero bits are zero in `i`'s format (second check of R105). -/
def checkZeroBits (w : Word32) (i : Instr) : Except DecodeReject Instr :=
  if w &&& mustBeZeroMask i.format = 0#32 then .ok i else .error .mustBeZeroBit

/-- `decode` of R105: total on every word, first on OP, then on the must-be-zero bits. -/
def decode (w : Word32) : Except DecodeReject Instr :=
  match (opField w).toNat with
  | 0x00 => checkZeroBits w .nop
  | 0x01 => checkZeroBits w .ldkey
  | 0x02 => checkZeroBits w .enc
  | 0x03 => checkZeroBits w .clrkey
  | 0x10 => checkZeroBits w (.gmul2 (aField w))
  | 0x11 => checkZeroBits w (.gmul3 (aField w))
  | 0x12 => checkZeroBits w (.gmul (aField w) (bField w))
  | 0x13 => checkZeroBits w (.sboxlu (aField w))
  | 0x20 => checkZeroBits w .ldst
  | 0x21 => checkZeroBits w .subb
  | 0x22 => checkZeroBits w .shrow
  | 0x23 => checkZeroBits w .mixcol
  | 0x24 => checkZeroBits w (.addrk (nField w))
  | 0x25 => checkZeroBits w .stst
  | _ => .error .undefinedOp

/-- Decoding a row of spec/opcode_table.json: the low `nbits` bits of `w` are the command word, bit 0 the least
significant. A command is one 32-bit word (R100), so every bit above `nbits` is 0. -/
def decodeTableWord (nbits w : Nat) : Option Instr :=
  (decode (BitVec.ofNat 32 (w % 2 ^ nbits))).toOption

/-! ## Encoding (R102, R109) -/

/-- Format F0: only OP. -/
def wordF0 (op : Byte) : Word32 := 0x000000#24 ++ op

/-- Format FA: A above OP. -/
def wordFA (a op : Byte) : Word32 := 0x0000#16 ++ a ++ op

/-- Format FAB: B above A above OP. -/
def wordFAB (b a op : Byte) : Word32 := 0x00#8 ++ b ++ a ++ op

/-- Format FN: N above OP. -/
def wordFN (n : Nat) (op : Byte) : Word32 := 0x00000#20 ++ BitVec.ofNat 4 n ++ op

/-- The command word of a command (the word column of R109). -/
def encode : Instr → Word32
  | .nop => wordF0 0x00#8
  | .ldkey => wordF0 0x01#8
  | .enc => wordF0 0x02#8
  | .clrkey => wordF0 0x03#8
  | .gmul2 a => wordFA a 0x10#8
  | .gmul3 a => wordFA a 0x11#8
  | .gmul a b => wordFAB b a 0x12#8
  | .sboxlu a => wordFA a 0x13#8
  | .ldst => wordF0 0x20#8
  | .subb => wordF0 0x21#8
  | .shrow => wordF0 0x22#8
  | .mixcol => wordF0 0x23#8
  | .addrk n => wordFN n 0x24#8
  | .stst => wordF0 0x25#8

/-! ## The opcode table, as rows -/

/-- One row of spec/opcode_table.json. -/
structure OpcodeRow where
  mnemonic : String
  matchBits : Word32
  mask : Word32
  deriving DecidableEq, Repr

/-- A word has a row's pattern. -/
def OpcodeRow.matchesWord (r : OpcodeRow) (w : Word32) : Bool := w &&& r.mask == r.matchBits

/-- spec/opcode_table.json, "match" and "mask" of each row; the masks are R102's decode masks. -/
def opcodeRows : List OpcodeRow :=
  [⟨"NOP", 0x00000000#32, 0xFFFFFFFF#32⟩,
   ⟨"LDKEY", 0x00000001#32, 0xFFFFFFFF#32⟩,
   ⟨"ENC", 0x00000002#32, 0xFFFFFFFF#32⟩,
   ⟨"CLRKEY", 0x00000003#32, 0xFFFFFFFF#32⟩,
   ⟨"GMUL2", 0x00000010#32, 0xFFFF00FF#32⟩,
   ⟨"GMUL3", 0x00000011#32, 0xFFFF00FF#32⟩,
   ⟨"GMUL", 0x00000012#32, 0xFF0000FF#32⟩,
   ⟨"SBOXLU", 0x00000013#32, 0xFFFF00FF#32⟩,
   ⟨"LDST", 0x00000020#32, 0xFFFFFFFF#32⟩,
   ⟨"SUBB", 0x00000021#32, 0xFFFFFFFF#32⟩,
   ⟨"SHROW", 0x00000022#32, 0xFFFFFFFF#32⟩,
   ⟨"MIXCOL", 0x00000023#32, 0xFFFFFFFF#32⟩,
   ⟨"ADDRK", 0x00000024#32, 0xFFFFF0FF#32⟩,
   ⟨"STST", 0x00000025#32, 0xFFFFFFFF#32⟩]

/-! ## Assembler lines (R109) -/

/-- A line of the command assembler, its operands as the numerals written (R109). -/
inductive AsmLine where
  | nop
  | ldkey
  | enc
  | clrkey
  | gmul2 (a : Nat)
  | gmul3 (a : Nat)
  | gmul (a b : Nat)
  | sboxlu (a : Nat)
  | ldst
  | subb
  | shrow
  | mixcol
  | addrk (n : Nat)
  | stst
  /-- `.word V`, "any 32-bit value, for testing illegal words". -/
  | word (v : Word32)
  deriving DecidableEq, Repr

/-- A numeral as a byte operand: "An assembler refuses an `A` or `B` above 255" (R109). -/
def asmByte (n : Nat) : Option Byte := if n ≤ 255 then some (BitVec.ofNat 8 n) else none

/-- `A<<8` (R109). -/
def shiftedA (a : Byte) : Word32 := a.setWidth 32 <<< 8

/-- `B<<16` (R109). -/
def shiftedB (b : Byte) : Word32 := b.setWidth 32 <<< 16

/-- `N<<8` (R109). -/
def shiftedN (n : Nat) : Word32 := BitVec.ofNat 32 n <<< 8

/-- The command word of a line, or none where the assembler refuses it (R109). -/
def assemble : AsmLine → Option Word32
  | .nop => some 0x00000000#32
  | .ldkey => some 0x00000001#32
  | .enc => some 0x00000002#32
  | .clrkey => some 0x00000003#32
  | .gmul2 a => (asmByte a).map fun x => 0x00000010#32 ||| shiftedA x
  | .gmul3 a => (asmByte a).map fun x => 0x00000011#32 ||| shiftedA x
  | .gmul a b => (asmByte a).bind fun x => (asmByte b).map fun y => 0x00000012#32 ||| shiftedA x ||| shiftedB y
  | .sboxlu a => (asmByte a).map fun x => 0x00000013#32 ||| shiftedA x
  | .ldst => some 0x00000020#32
  | .subb => some 0x00000021#32
  | .shrow => some 0x00000022#32
  | .mixcol => some 0x00000023#32
  | .addrk n => if n ≤ 10 then some (0x00000024#32 ||| shiftedN n) else none
  | .stst => some 0x00000025#32
  | .word v => some v

end Sys2Proof
end

