-- ==== Sys2Proof/Machine/State.lean ====
section
/-! DEFINITION. The state of one engine instance: exactly the tuple of spec/10_state.md R31, and two fields of the
model's own for the world around it (the events to come, and what host reads returned). -/

namespace Sys2Proof.Machine

/-- `PEND`, "the engine's single pending-operation slot" (R43). -/
inductive Pend where
  /-- Idle. -/
  | none
  /-- The S-box generation is pending. -/
  | gen
  /-- Command word `w` has been accepted and not yet executed. -/
  | cmd (w : Word32)
  deriving DecidableEq, Repr

/-- One event of the total order of R81: an ENGINE turn (R76), a host access (R72, R73, R75), or the platform's reset
input (R280). A host access names its size in bytes and its window offset. -/
inductive Event where
  /-- The ENGINE takes its turn: its step if one is enabled, nothing otherwise (R30). -/
  | engine
  /-- A host read of `size` bytes at window offset `off`. -/
  | read (size : Nat) (off : Offset)
  /-- A host write of `size` bytes at window offset `off`; `v` is the 32-bit word of an access of 4 bytes. -/
  | write (size : Nat) (off : Offset) (v : Word32)
  /-- The reset input is asserted. -/
  | reset
  deriving DecidableEq, Repr

/-- The causes of an error (R241, codes 0x1 to 0x8). -/
inductive ErrCause where
  | illegal
  | busy
  | noKey
  | keyLocked
  | range
  | trunc
  | shortKey
  | access
  deriving DecidableEq, Repr

/-- Why the machine would stop with a fault. It never does: an error "is recorded, not trapped" (R240), and
"No behaviour is `stuck`: every operation terminates" (93_implementation_defined.md). So the type has no
constructor, nobody raises it, and that is safe (log 21). -/
inductive Fault where
  deriving DecidableEq, Repr

/-- Why the model would refuse a step. -/
inductive Refusal where
  /-- A command without a meaning in the model. No arm of `exec` raises it: all fourteen have one. Safe. -/
  | notModelled (mnemonic : String)
  deriving DecidableEq, Repr

/-- The state of one engine instance (R31), and the model's own `inbox` and `replies`. -/
structure State where
  /-- `SBOX` (R32). -/
  sbox : SboxTable
  /-- `SBOX_VALID` (R33). -/
  sboxValid : Bool
  /-- `RK` (R34). -/
  rk : Schedule
  /-- `KEY_VALID` (R35). -/
  keyValid : Bool
  /-- `STATE` (R36). -/
  state : Block
  /-- `DIN` (R37). -/
  din : Block
  /-- `DIN_FILL` (R38), bit `k` for word `DINk`. -/
  dinFill : BitVec 4
  /-- `DOUT` (R39). -/
  dout : Block
  /-- `RES` (R40). -/
  res : Byte
  /-- `ERR` (R41), a 4-bit code. -/
  err : BitVec 4
  /-- `ERRINFO` (R42). -/
  errInfo : Word32
  /-- `PEND` (R43). -/
  pend : Pend
  /-- The model's own: the events still to come, oldest first (93_implementation_defined.md I14; log 2). -/
  inbox : List Event
  /-- The model's own: the words host reads have returned, newest first (log 6). -/
  replies : List Word32
  deriving DecidableEq, Repr

/-- The state right after reset (R31, R280): every element zero, except `PEND = Gen`. The two fields of the model's
own start empty (DESIGN CHOICE, log 5). -/
def State.reset : State where
  sbox := Vector.replicate 256 0x00#8
  sboxValid := false
  rk := Vector.replicate 176 0x00#8
  keyValid := false
  state := Vector.replicate 16 0x00#8
  din := Vector.replicate 16 0x00#8
  dinFill := 0b0000#4
  dout := Vector.replicate 16 0x00#8
  res := 0x00#8
  err := 0x0#4
  errInfo := 0x00000000#32
  pend := .gen
  inbox := []
  replies := []

end Sys2Proof.Machine
end

