-- ==== Sys2Proof/Machine/Flags.lean ====
section
/-! DEFINITION. The flags: `STATUS`, "the engine's only flag word" (spec/10_state.md R46), and what its fields are
computed from. Each field "is a function of the state at the time of the read". -/

namespace Sys2Proof.Machine

/-- `BUSY = (PEND ≠ None)` (R43). -/
def State.busy (s : State) : Bool := s.pend != .none

/-- `ERRF`: `ERR ≠ 0` (R46). -/
def State.errFlag (s : State) : Bool := s.err != 0#4

/-- All four words of `DIN` are written: `DIN_FILL = 0b1111` (R38). -/
def State.dinFull (s : State) : Bool := s.dinFill == 0b1111#4

/-- `STATUS` (R46): BUSY, SBOX_VALID, KEY_VALID, ERRF in bits 0 to 3, DIN_FILL in bits 7:4, zero above. -/
def State.statusWord (s : State) : Word32 :=
  0x000000#24 ++ s.dinFill ++ BitVec.ofBool s.errFlag ++ BitVec.ofBool s.keyValid ++ BitVec.ofBool s.sboxValid
    ++ BitVec.ofBool s.busy

/-- `DIN_FILL[k] <- 1` (20_memory.md R73). -/
def setFillBit (fill : BitVec 4) (k : Fin 4) : BitVec 4 := fill ||| (1#4 <<< k.val)

end Sys2Proof.Machine
end

