-- ==== Sys2Proof/Machine/Operands.lean ====
section
/-! DEFINITION. The operand forms: bytes in and out of bus words (spec/20_memory.md R71), four-byte words of an
array, S-box entries and round keys (spec/30_encoding.md R103: "A command's array operands ... are fixed by its
opcode"). -/

namespace Sys2Proof.Machine

/-! ## Bus lanes (R71) -/

/-- The bus word whose byte lane `j` is byte `j` of the quad: "bits `[8j+7:8j]` hold the byte at offset `o + j`" (R71). -/
def laneWord (q : Quad) : Word32 := q.b3 ++ q.b2 ++ q.b1 ++ q.b0

/-- Byte lane `j` of a bus word (R71). -/
def lane (v : Word32) (j : Nat) : Byte := v.extractLsb' (8 * j) 8

/-- The four bytes of a bus word, lane 0 first (R71). -/
def quadOfWord (v : Word32) : Quad := ⟨lane v 0, lane v 1, lane v 2, lane v 3⟩

/-! ## Four-byte words of an array -/

/-- Byte `k` of an array. Every caller's index lies inside the array; outside it the read is 0 (log 14). -/
def byteAt {n : Nat} (a : Vector Byte n) (k : Nat) : Byte := a[k]?.getD 0x00#8

/-- The bytes `A[k..k+4)`. -/
def quadAt {n : Nat} (a : Vector Byte n) (k : Nat) : Quad :=
  ⟨byteAt a k, byteAt a (k + 1), byteAt a (k + 2), byteAt a (k + 3)⟩

/-- `A[k..k+4) <- q`. -/
def putQuad {n : Nat} (a : Vector Byte n) (k : Nat) (q : Quad) : Vector Byte n :=
  (((a.setIfInBounds k q.b0).setIfInBounds (k + 1) q.b1).setIfInBounds (k + 2) q.b2).setIfInBounds (k + 3) q.b3

/-- Field addition is XOR (40_gf_arith.md R130), here on four bytes. -/
def xorQuad (x y : Quad) : Quad := ⟨x.b0 ^^^ y.b0, x.b1 ^^^ y.b1, x.b2 ^^^ y.b2, x.b3 ^^^ y.b3⟩

/-- Bus word `k` of an array: bytes `4k .. 4k+3` in lanes 0 to 3 (10_state.md R48). -/
def busWordAt {n : Nat} (a : Vector Byte n) (k : Nat) : Word32 := laneWord (quadAt a (4 * k))

/-! ## S-box entries and round keys -/

/-- `sbox(v) = SBOX[v]` (41_sbox.md R158). -/
def sboxAt (t : SboxTable) (v : Byte) : Byte := t[v.toNat]'v.isLt

/-- `roundkey(i) = RK[16i..16i+16)`, for `0 <= i <= 10` (42_key_schedule.md R175). -/
def roundKey (rk : Schedule) (i : Fin 11) : Block :=
  Vector.ofFn fun j : Fin 16 => rk[16 * i.val + j.val]'(by omega)

end Sys2Proof.Machine
end

