-- ==== Sys2Proof/Machine/Ops.lean ====
section
/-! DEFINITION. The named operations on the state that commands and accesses share: recording an error (the
machine's form of an exception, spec/60_exceptions.md R240 to R244), clearing it (its form of a return, R246),
ending an ENGINE step (spec/20_memory.md R76), and the writes of one register each. -/

namespace Sys2Proof.Machine

/-! ## Errors -/

/-- The code of a cause, as written to `ERR[3:0]` (R241). -/
def ErrCause.code : ErrCause → BitVec 4
  | .illegal => 0x1#4
  | .busy => 0x2#4
  | .noKey => 0x3#4
  | .keyLocked => 0x4#4
  | .range => 0x5#4
  | .trunc => 0x6#4
  | .shortKey => 0x7#4
  | .access => 0x8#4

/-- `raise E(info)` (R242): "Only the first error since the last clear is kept". -/
def State.raise (s : State) (e : ErrCause) (info : Word32) : State :=
  if s.err = 0#4 then { s with err := e.code, errInfo := info } else s

/-- A host write to `ERR` (R246): "the engine's only 'return from error'". -/
def State.clearError (s : State) : State := { s with err := 0x0#4, errInfo := 0x00000000#32 }

/-! ## Ending an ENGINE step -/

/-- `PEND <- None`: the ENGINE step is over (20_memory.md R76). -/
def State.retire (s : State) : State := { s with pend := .none }

/-- A command that raises: "writes no state except `ERR` and `ERRINFO` ... and `PEND <- None`" (R244). `w` is the
command word (R243). -/
def State.failCommand (s : State) (e : ErrCause) (w : Word32) : State := (s.raise e w).retire

/-! ## Writes of one element -/

/-- `RES <- v` (10_state.md R40). -/
def State.setRes (s : State) (v : Byte) : State := { s with res := v }

/-- `STATE <- b` (10_state.md R36). -/
def State.setState (s : State) (b : Block) : State := { s with state := b }

/-- `DOUT <- b` (10_state.md R39). -/
def State.setDout (s : State) (b : Block) : State := { s with dout := b }

/-- "A successful consuming command sets `DIN_FILL` to 0b0000" (10_state.md R38). -/
def State.consumeDin (s : State) : State := { s with dinFill := 0b0000#4 }

/-- `SBOX <- t`, `SBOX_VALID <- 1` (41_sbox.md R153). -/
def State.installSbox (s : State) (t : SboxTable) : State := { s with sbox := t, sboxValid := true }

/-- `RK <- r`, `KEY_VALID <- 1` (42_key_schedule.md R176). -/
def State.installKey (s : State) (r : Schedule) : State := { s with rk := r, keyValid := true }

/-- What CLRKEY zeroes (42_key_schedule.md R177). -/
def State.clearKey (s : State) : State :=
  { s with
    rk := Vector.replicate 176 0x00#8
    keyValid := false
    state := Vector.replicate 16 0x00#8
    din := Vector.replicate 16 0x00#8
    dinFill := 0b0000#4
    dout := Vector.replicate 16 0x00#8 }

/-- `DIN[4k + j] <- v[8j+7:8j]` for `j` in 0..3, and `DIN_FILL[k] <- 1` (20_memory.md R73). -/
def State.writeDin (s : State) (k : Fin 4) (v : Word32) : State :=
  { s with din := putQuad s.din (4 * k.val) (quadOfWord v), dinFill := setFillBit s.dinFill k }

/-- `PEND <- Cmd(w)`: the command is accepted (20_memory.md R73). -/
def State.accept (s : State) (w : Word32) : State := { s with pend := .cmd w }

/-! ## The model's own fields -/

/-- The events still to come. -/
def State.setInbox (s : State) (es : List Event) : State := { s with inbox := es }

/-- A host read returns `w`. -/
def State.reply (s : State) (w : Word32) : State := { s with replies := w :: s.replies }

end Sys2Proof.Machine
end

