-- ==== Sys2Proof/Machine/Bus.lean ====
section
/-! DEFINITION. The register window: the register map of spec/10_state.md R48, host reads and host writes
(spec/20_memory.md R72 to R75, spec/60_exceptions.md R248), and the reset input (spec/70_reset_and_hazards.md R280). -/

namespace Sys2Proof.Machine

/-! ## The register map (R48) -/

/-- The registers of the window, by the names of R48 and R110. -/
inductive Reg where
  | cmd
  | status
  | err
  | errInfo
  | res
  | id
  | din (k : Fin 4)
  | dout (k : Fin 4)
  | rk (m : Fin 44)
  | sb (m : Fin 64)
  /-- Every other aligned offset (R74). -/
  | reserved
  deriving DecidableEq, Repr

/-- The register at an aligned window offset (R48). -/
def Reg.atOffset (off : Offset) : Reg :=
  let o := off.toNat
  if o = 0x000 then .cmd
  else if o = 0x004 then .status
  else if o = 0x008 then .err
  else if o = 0x00C then .errInfo
  else if o = 0x010 then .res
  else if o = 0x014 then .id
  else if h : 0x020 ≤ o ∧ o < 0x030 then .din ⟨(o - 0x020) / 4, by omega⟩
  else if h : 0x030 ≤ o ∧ o < 0x040 then .dout ⟨(o - 0x030) / 4, by omega⟩
  else if h : 0x100 ≤ o ∧ o < 0x1B0 then .rk ⟨(o - 0x100) / 4, by omega⟩
  else if h : 0x200 ≤ o ∧ o < 0x300 then .sb ⟨(o - 0x200) / 4, by omega⟩
  else .reserved

/-- The window offset a register name stands for in a host program (R48, R110); reserved offsets have no name. -/
def Reg.offset? : Reg → Option Offset
  | .cmd => some 0x000#10
  | .status => some 0x004#10
  | .err => some 0x008#10
  | .errInfo => some 0x00C#10
  | .res => some 0x010#10
  | .id => some 0x014#10
  | .din k => some (BitVec.ofNat 10 (0x020 + 4 * k.val))
  | .dout k => some (BitVec.ofNat 10 (0x030 + 4 * k.val))
  | .rk m => some (BitVec.ofNat 10 (0x100 + 4 * m.val))
  | .sb m => some (BitVec.ofNat 10 (0x200 + 4 * m.val))
  | .reserved => none

/-- The word a register reads as (R48): `CMD` and reserved offsets read as zero (R74), `ID` is hard-wired (R47). -/
def State.readReg (s : State) : Reg → Word32
  | .cmd => 0x00000000#32
  | .status => s.statusWord
  | .err => s.err.setWidth 32
  | .errInfo => s.errInfo
  | .res => s.res.setWidth 32
  | .id => 0x0000A128#32
  | .din k => busWordAt s.din k.val
  | .dout k => busWordAt s.dout k.val
  | .rk m => busWordAt s.rk m.val
  | .sb m => busWordAt s.sbox m.val
  | .reserved => 0x00000000#32

/-! ## Host accesses -/

/-- "The only defined host access is a naturally aligned 32-bit read or write" (R75). -/
def accessDefined (size : Nat) (off : Offset) : Bool := size == 4 && off.toNat % 4 == 0

/-- `zext_32(off)`, what `ERRINFO` holds for an access error (R243). -/
def offsetInfo (off : Offset) : Word32 := off.setWidth 32

/-- The word a host read returns: the register's word (R72), or 0 for an access that is not defined (R75). -/
def State.readValue (s : State) (size : Nat) (off : Offset) : Word32 :=
  if accessDefined size off then s.readReg (Reg.atOffset off) else 0x00000000#32

/-- What a host read does to the engine: nothing (R72), or ACCESS for an access that is not defined (R75). -/
def State.readEffect (s : State) (size : Nat) (off : Offset) : State :=
  if accessDefined size off then s else s.raise .access (offsetInfo off)

/-- A host write to `CMD` (R73, R245): discarded while an error is recorded, else BUSY, else accepted. -/
def State.writeCmd (s : State) (v : Word32) : State :=
  if s.err ≠ 0#4 then s
  else if s.busy then s.raise .busy 0x00000000#32
  else s.accept v

/-- A host write to `DINk` (R73): BUSY while an operation is pending, else the word is written. -/
def State.writeDinReg (s : State) (k : Fin 4) (off : Offset) (v : Word32) : State :=
  if s.busy then s.raise .busy (offsetInfo off) else s.writeDin k v

/-- A defined host write to a register (R73); a write to a read-only or reserved offset raises ACCESS. -/
def State.writeReg (s : State) (r : Reg) (off : Offset) (v : Word32) : State :=
  match r with
  | .cmd => s.writeCmd v
  | .status => s.raise .access (offsetInfo off)
  | .err => s.clearError
  | .errInfo => s.raise .access (offsetInfo off)
  | .res => s.raise .access (offsetInfo off)
  | .id => s.raise .access (offsetInfo off)
  | .din k => s.writeDinReg k off v
  | .dout _ => s.raise .access (offsetInfo off)
  | .rk _ => s.raise .access (offsetInfo off)
  | .sb _ => s.raise .access (offsetInfo off)
  | .reserved => s.raise .access (offsetInfo off)

/-- A host write, its checks in the order of R248. -/
def State.write (s : State) (size : Nat) (off : Offset) (v : Word32) : State :=
  if accessDefined size off then s.writeReg (Reg.atOffset off) off v else s.raise .access (offsetInfo off)

/-! ## The reset input -/

/-- The reset input (R280): "one event that sets every element of the state to the reset value". The events still to
come and the words already returned are the world's, not the engine's, and stay (log 7). -/
def State.assertReset (s : State) : State := { State.reset with inbox := s.inbox, replies := s.replies }

end Sys2Proof.Machine
end

