-- ==== Sys2Proof/Machine/Galois.lean ====
section
/-! DEFINITION. The GF(2^8) multiplier and its commands GMUL2, GMUL3, GMUL (spec/40_gf_arith.md). -/

namespace Sys2Proof.Machine

/-! ## The field (R130 to R133) -/

/-- `times2` (R131): "shift left by one bit; if the original high bit was set, XOR the result with 0x1B". -/
def times2 (b : Byte) : Byte := if b.getLsbD 7 then (b <<< 1) ^^^ 0x1B#8 else b <<< 1

/-- `times3` (R132): "equals `times2(b) XOR b`". -/
def times3 (b : Byte) : Byte := times2 b ^^^ b

/-- The loop of `gmul` (R133) for `k` more bits of `b`, from bit `i` on: `t` is the doubled operand, `r` the sum. -/
def gmulLoop : (k i : Nat) → (t b r : Byte) → Byte
  | 0, _, _, _, r => r
  | k + 1, i, t, b, r => gmulLoop k (i + 1) (times2 t) b (if b.getLsbD i then r ^^^ t else r)

/-- `gmul(a, b)`, the field product (R133): "the XOR of `a` doubled `i` times, over the set bits `i` of `b`". -/
def gmul (a b : Byte) : Byte := gmulLoop 8 0 a b 0x00#8

/-! ## Commands -/

/-- GMUL2 (R137): `RES <- times2(A)`. -/
def execGmul2 (a : Byte) (s : State) : Host.Outcome State Fault Refusal := .next (s.setRes (times2 a)).retire

/-- GMUL3 (R138): `RES <- times3(A)`. -/
def execGmul3 (a : Byte) (s : State) : Host.Outcome State Fault Refusal := .next (s.setRes (times3 a)).retire

/-- GMUL (R139): `RES <- gmul(A, B)`. -/
def execGmul (a b : Byte) (s : State) : Host.Outcome State Fault Refusal := .next (s.setRes (gmul a b)).retire

end Sys2Proof.Machine
end

