-- ==== Sys2Proof/Machine/Sbox.lean ====
section
/-! DEFINITION. The S-box generator, the GEN step that runs it, and SBOXLU (spec/41_sbox.md). -/

namespace Sys2Proof.Machine

/-! ## Operations (R150 to R152) -/

/-- `rotl8(x, n)` (R150). -/
def rotl8 (x : Byte) (n : Nat) : Byte := (x <<< n) ||| (x >>> (8 - n))

/-- The affine transform without its constant (R151). -/
def xformed (q : Byte) : Byte := q ^^^ rotl8 q 1 ^^^ rotl8 q 2 ^^^ rotl8 q 3 ^^^ rotl8 q 4

/-- `affine(q) = xformed(q) ^ 0x63` (R151). -/
def affine (q : Byte) : Byte := xformed q ^^^ 0x63#8

/-- `INV3 = 0xF6`, "the one Byte `c` with `gmul(0x03, c) = 0x01`" (R152). -/
def inv3 : Byte := 0xF6#8

/-! ## The generator walk (R153) -/

/-- The repeat loop of GEN (R153): store `SBOX[p]`, then multiply `p` by 3 and divide `q` by 3, until `p` is 1. The
loop body runs exactly 255 times (R154 (a)); `fuel` bounds the recursion and is never used up (log 15). -/
def walk : (fuel : Nat) → (p q : Byte) → SboxTable → SboxTable
  | 0, _, _, t => t
  | fuel + 1, p, q, t =>
    if times3 p = 0x01#8 then t.setIfInBounds p.toNat (affine q)
    else walk fuel (times3 p) (gmul q inv3) (t.setIfInBounds p.toNat (affine q))

/-- The table GEN leaves (R153): the walk from `p = q = 0x01`, then "force table[0] = 0x63". -/
def generate (t : SboxTable) : SboxTable := (walk 256 0x01#8 0x01#8 t).setIfInBounds 0 0x63#8

/-- GEN, "the ENGINE step taken when `PEND = Gen`" (R153). It "raises no error and cannot fail". -/
def State.gen (s : State) : State := (s.installSbox (generate s.sbox)).retire

/-! ## Command -/

/-- SBOXLU (R159): `RES <- SBOX[A]`. -/
def execSboxlu (a : Byte) (s : State) : Host.Outcome State Fault Refusal := .next (s.setRes (sboxAt s.sbox a)).retire

end Sys2Proof.Machine
end

