-- ==== Sys2Proof/Machine/RoundPipeline.lean ====
section
/-! DEFINITION. The four transforms of the round pipeline and the six step commands (spec/43_round_ops.md). -/

namespace Sys2Proof.Machine

/-! ## Transforms (R190 to R193) -/

/-- `SubBytes(S)[i] = sbox(S[i])` (R190). -/
def subBytes (t : SboxTable) (b : Block) : Block := Vector.ofFn fun i : Fin 16 => sboxAt t b[i]

/-- `ShiftRows(S)[r + 4*c] = S[r + 4*((c + r) mod 4)]` (R191), where byte `i` is row `i mod 4`, column `i div 4`. -/
def shiftRows (b : Block) : Block :=
  Vector.ofFn fun i : Fin 16 => b[i.val % 4 + 4 * ((i.val / 4 + i.val % 4) % 4)]'(by omega)

/-- The product of one column with the fixed matrix, over GF(2^8) (R192). -/
def mixColumn (x : Quad) : Quad where
  b0 := times2 x.b0 ^^^ times3 x.b1 ^^^ x.b2 ^^^ x.b3
  b1 := x.b0 ^^^ times2 x.b1 ^^^ times3 x.b2 ^^^ x.b3
  b2 := x.b0 ^^^ x.b1 ^^^ times2 x.b2 ^^^ times3 x.b3
  b3 := times3 x.b0 ^^^ x.b1 ^^^ x.b2 ^^^ times2 x.b3

/-- Column `c` of a Block, bytes `S[4c..4c+4)` (R192). -/
def column (b : Block) (c : Fin 4) : Quad :=
  ⟨b[4 * c.val]'(by omega), b[4 * c.val + 1]'(by omega), b[4 * c.val + 2]'(by omega), b[4 * c.val + 3]'(by omega)⟩

/-- The Block with these four columns (R192). -/
def ofColumns (q0 q1 q2 q3 : Quad) : Block :=
  #v[q0.b0, q0.b1, q0.b2, q0.b3, q1.b0, q1.b1, q1.b2, q1.b3, q2.b0, q2.b1, q2.b2, q2.b3, q3.b0, q3.b1, q3.b2, q3.b3]

/-- `MixColumns(S)[4c .. 4c+4) = mixcol(S[4c], S[4c+1], S[4c+2], S[4c+3])` (R192). -/
def mixColumns (b : Block) : Block :=
  ofColumns (mixColumn (column b 0)) (mixColumn (column b 1)) (mixColumn (column b 2)) (mixColumn (column b 3))

/-- `AddRoundKey(S, i)[j] = S[j] ^ RK[16*i + j]` (R193). -/
def addRoundKey (rk : Schedule) (b : Block) (i : Fin 11) : Block :=
  Vector.ofFn fun j : Fin 16 => b[j] ^^^ (roundKey rk i)[j]

/-! ## Commands -/

/-- LDST (R200): TRUNC unless `DIN` is full, else `STATE <- DIN`, `DIN_FILL <- 0b0000`. -/
def execLdst (s : State) : Host.Outcome State Fault Refusal :=
  if !s.dinFull then .next (s.failCommand .trunc (encode .ldst))
  else .next (s.setState s.din).consumeDin.retire

/-- SUBB (R201): `STATE <- SubBytes(STATE)`. -/
def execSubb (s : State) : Host.Outcome State Fault Refusal := .next (s.setState (subBytes s.sbox s.state)).retire

/-- SHROW (R202): `STATE <- ShiftRows(STATE)`. -/
def execShrow (s : State) : Host.Outcome State Fault Refusal := .next (s.setState (shiftRows s.state)).retire

/-- MIXCOL (R203): `STATE <- MixColumns(STATE)`. -/
def execMixcol (s : State) : Host.Outcome State Fault Refusal := .next (s.setState (mixColumns s.state)).retire

/-- ADDRK (R204): RANGE, then NOKEY, else `STATE <- AddRoundKey(STATE, N)`. -/
def execAddrk (n : Nat) (s : State) : Host.Outcome State Fault Refusal :=
  if h : n ≤ 10 then
    if !s.keyValid then .next (s.failCommand .noKey (encode (.addrk n)))
    else .next (s.setState (addRoundKey s.rk s.state ⟨n, by omega⟩)).retire
  else .next (s.failCommand .range (encode (.addrk n)))

/-- STST (R205): `DOUT <- STATE`. -/
def execStst (s : State) : Host.Outcome State Fault Refusal := .next (s.setDout s.state).retire

end Sys2Proof.Machine
end

