-- ==== Sys2Proof/Machine/BlockEncrypt.lean ====
section
/-! DEFINITION. The block encryptor, ENC and NOP (spec/44_block_encrypt.md). -/

namespace Sys2Proof.Machine

/-! ## The cipher (R220) -/

/-- One of the rounds 1..9: SubBytes, ShiftRows, MixColumns, AddRoundKey (R220 step 3). -/
def fullRound (t : SboxTable) (rk : Schedule) (b : Block) (round : Fin 11) : Block :=
  addRoundKey rk (mixColumns (shiftRows (subBytes t b))) round

/-- The final round, where "MixColumns is omitted" (R220 step 4). -/
def finalRound (t : SboxTable) (rk : Schedule) (b : Block) : Block :=
  addRoundKey rk (shiftRows (subBytes t b)) 10

/-- The rounds of step 3 in their order (R220, R221). -/
def middleRounds : List (Fin 11) := [1, 2, 3, 4, 5, 6, 7, 8, 9]

/-- `Cipher(X, RK)` (R220), reading the S-box `t` (R222). -/
def cipher (t : SboxTable) (x : Block) (rk : Schedule) : Block :=
  finalRound t rk (middleRounds.foldl (fullRound t rk) (addRoundKey rk x 0))

/-! ## Commands -/

/-- ENC (R224): NOKEY, then TRUNC, else `STATE <- Cipher(DIN, RK)`, `DOUT <- STATE`, `DIN_FILL <- 0b0000`. -/
def execEnc (s : State) : Host.Outcome State Fault Refusal :=
  if !s.keyValid then .next (s.failCommand .noKey (encode .enc))
  else if !s.dinFull then .next (s.failCommand .trunc (encode .enc))
  else
    let c := cipher s.sbox s.din s.rk
    .next ((s.setState c).setDout c).consumeDin.retire

/-- NOP (R225): "no state changes beyond `PEND <- None`". -/
def execNop (s : State) : Host.Outcome State Fault Refusal := .next s.retire

end Sys2Proof.Machine
end

