-- ==== Sys2Proof/Machine/KeySchedule.lean ====
section
/-! DEFINITION. The key-schedule expander, LDKEY and CLRKEY (spec/42_key_schedule.md). -/

namespace Sys2Proof.Machine

/-! ## Operations (R170 to R173) -/

/-- `RCON` (R170), "successive field-doublings of 1". -/
def rcon : List Byte :=
  [0x01#8, 0x02#8, 0x04#8, 0x08#8, 0x10#8, 0x20#8, 0x40#8, 0x80#8, 0x1B#8, 0x36#8]

/-- `RCON[i]`; "`RCON` is never indexed past 9" (R173). -/
def rconAt (i : Nat) : Byte := rcon.getD i 0x00#8

/-- `RotWord(t0, t1, t2, t3) = (t1, t2, t3, t0)` (R171). -/
def rotWord (q : Quad) : Quad := ⟨q.b1, q.b2, q.b3, q.b0⟩

/-- `SubWord` (R172). -/
def subWord (t : SboxTable) (q : Quad) : Quad := ⟨sboxAt t q.b0, sboxAt t q.b1, sboxAt t q.b2, sboxAt t q.b3⟩

/-- `t[0] <- t[0] ^ c` (R173). -/
def xorFirst (q : Quad) (c : Byte) : Quad := { q with b0 := q.b0 ^^^ c }

/-- The while loop of `expand` (R173), `k` times more: `n` bytes are produced, `ri` is the rcon index. -/
def expandLoop (t : SboxTable) : (k n ri : Nat) → Schedule → Schedule
  | 0, _, _, w => w
  | k + 1, n, ri, w =>
    if n % 16 = 0 then
      expandLoop t k (n + 4) (ri + 1)
        (putQuad w n (xorQuad (xorFirst (subWord t (rotWord (quadAt w (n - 4)))) (rconAt ri)) (quadAt w (n - 16))))
    else
      expandLoop t k (n + 4) ri (putQuad w n (xorQuad (quadAt w (n - 4)) (quadAt w (n - 16))))

/-- `W[0..16) <- K[0..16)` (R173); the bytes above are not produced yet. -/
def masterKeyBytes (key : Block) : Schedule :=
  Vector.ofFn fun i : Fin 176 => if h : i.val < 16 then key[i.val]'h else 0x00#8

/-- `expand(K)`, from 16 bytes to 176 bytes, reading the S-box `t` (R173, R175). The loop "runs 40 times, for
`n = 16, 20, ..., 172`". -/
def expand (t : SboxTable) (key : Block) : Schedule := expandLoop t 40 16 0 (masterKeyBytes key)

/-! ## Commands -/

/-- LDKEY (R176): KEYLOCKED, then SHORTKEY, else `RK <- expand(DIN)`, `KEY_VALID <- 1`, `DIN_FILL <- 0b0000`. -/
def execLdkey (s : State) : Host.Outcome State Fault Refusal :=
  if s.keyValid then .next (s.failCommand .keyLocked (encode .ldkey))
  else if !s.dinFull then .next (s.failCommand .shortKey (encode .ldkey))
  else .next ((s.installKey (expand s.sbox s.din)).consumeDin).retire

/-- CLRKEY (R177): "end the key session". -/
def execClrkey (s : State) : Host.Outcome State Fault Refusal := .next s.clearKey.retire

end Sys2Proof.Machine
end

