-- ==== Sys2Proof/Machine/Dispatch.lean ====
section
/-! DEFINITION. The meaning of every command, one arm per constructor: the ENGINE step of a decoded command, from
its first check after decoding (spec/60_exceptions.md R247) to `PEND <- None`. -/

namespace Sys2Proof.Machine

def exec (i : Instr) (s : State) : Host.Outcome State Fault Refusal :=
  match i with
  | .nop => Sys2Proof.Machine.execNop s
  | .ldkey => Sys2Proof.Machine.execLdkey s
  | .enc => Sys2Proof.Machine.execEnc s
  | .clrkey => Sys2Proof.Machine.execClrkey s
  | .gmul2 a => Sys2Proof.Machine.execGmul2 a s
  | .gmul3 a => Sys2Proof.Machine.execGmul3 a s
  | .gmul a b => Sys2Proof.Machine.execGmul a b s
  | .sboxlu a => Sys2Proof.Machine.execSboxlu a s
  | .ldst => Sys2Proof.Machine.execLdst s
  | .subb => Sys2Proof.Machine.execSubb s
  | .shrow => Sys2Proof.Machine.execShrow s
  | .mixcol => Sys2Proof.Machine.execMixcol s
  | .addrk n => Sys2Proof.Machine.execAddrk n s
  | .stst => Sys2Proof.Machine.execStst s

end Sys2Proof.Machine
end

