-- ==== Sys2Proof/Machine/Engine.lean ====
section
/-! DEFINITION. What one event does (spec/10_state.md R30, spec/20_memory.md R76, R81), and how a command word comes to
be pending without a host. -/

namespace Sys2Proof.Machine

/-- The ENGINE step (R76): "The step takes `PEND`, runs the whole GEN ... or the whole command, including validation,
and sets `PEND <- None`." An idle engine has no step and holds its state (R258). A word that does not decode raises
ILLEGAL (R105, R106). -/
def engineTurn (s : State) : Host.Outcome State Fault Refusal :=
  match s.pend with
  | .none => .next s
  | .gen => .next s.gen
  | .cmd w =>
    match decode w with
    | .error _ => .next (s.failCommand .illegal w)
    | .ok i => exec i s

/-- One event of the total order (R81). A host read hands its word to the host (log 6). -/
def applyEvent (e : Event) (s : State) : Host.Outcome State Fault Refusal :=
  match e with
  | .engine => engineTurn s
  | .read size off => .next ((s.readEffect size off).reply (s.readValue size off))
  | .write size off v => .next (s.write size off v)
  | .reset => .next s.assertReset

/-- The inbox with the ENGINE next to move: an empty inbox already leaves the turn to the ENGINE. -/
def engineFirst : List Event → List Event
  | [] => []
  | e :: es => .engine :: e :: es

/-- `s` with command word `w` pending and the ENGINE next to move. A command is never accepted before GEN is done
(20_memory.md R73), so a pending GEN is run first (log 8). -/
def State.placeCommand (s : State) (w : Word32) : State :=
  let ready := if s.pend = .gen then s.gen else s
  (ready.accept w).setInbox (engineFirst s.inbox)

end Sys2Proof.Machine
end

