-- ==== Sys2Proof/Machine/Step.lean ====
section
/-! DEFINITION. One step of the machine: one event (spec/20_memory.md R81). -/

namespace Sys2Proof.Machine

/-- One step: the oldest event of the inbox. With no event left the ENGINE moves: its step "eventually happens"
(70_reset_and_hazards.md R288; log 2). -/
def step (s : State) : Host.Outcome State Fault Refusal :=
  match s.inbox with
  | [] => engineTurn s
  | e :: es => applyEvent e (s.setInbox es)

/-- `s` with the command word of the table row's low `nbits` bits `w` pending, so that the very next step runs it.
The engine fetches nothing (R45): the command comes from a CMD write, and this stands for that write (log 8). -/
def State.withFetchWord (s : State) (nbits w : Nat) : State := s.placeCommand (BitVec.ofNat 32 (w % 2 ^ nbits))

end Sys2Proof.Machine
end

