-- ==== Sys2Proof/Config.lean ====
section
/-! DEFINITION. What is fixed for one machine: the three OPEN parameters of spec/00_scope.md R8 and
spec/92_eei_decisions.md (D2, D24, D25). Each is a constant without a value, so no claim can lean on one. -/

namespace Sys2Proof

/-- How many free 0x400-byte windows lie below engine `k`'s, above the one of the engine before it (D2: OPEN). -/
opaque Config.windowGap : Nat → Nat

/-- Which 0x400-byte window of the host's address space engine `k` has. Engines are numbered by address, so each has
"its own window at its own `BASE`" (R256; log 12). -/
def Config.windowIndex : Nat → Nat
  | 0 => Config.windowGap 0
  | k + 1 => Config.windowIndex k + 1 + Config.windowGap (k + 1)

/-- `BASE` of engine `k`: "OPEN: the host address of the engine's register window, a multiple of 0x400" (R8, R79). -/
def Config.base (k : Nat) : Nat := 0x400 * Config.windowIndex k

/-- How many engines the platform has beside the first (D25: OPEN). -/
opaque Config.otherEngines : Nat

/-- `NUM_INSTANCES`: "how many independent engines the platform provides, at least 1" (R8, R256). -/
def Config.numInstances : Nat := Config.otherEngines + 1

/-- `LAT(op)`: "the engine cycles a command takes, a function of the opcode only; no rule depends on it" (R8, R290). -/
opaque Config.commandLatency : Byte → Nat

/-- GEN's latency, "which is fixed" (R290). -/
opaque Config.genLatency : Nat

/-- The word the host's `n`-th read returns where it reads at `off` bytes above `BASE`, outside the engine's window: "the
engine fixes nothing else of the host's address space" (R79; log 24). -/
opaque Config.outsideWord : (off n : Nat) → Word32

end Sys2Proof
end

