-- ==== Sys2Proof/Machine/HostProgram.lean ====
section
/-! DEFINITION. Host programs over the engine (spec/30_encoding.md R110, R111): the HOST agent of R30 as a program of
bus operations, beside one engine. The claims about the engine do not need this layer: there a host is any list of
accesses. -/

namespace Sys2Proof.Machine

/-! ## Host operations (R110) -/

/-- A host operation. An offset is a natural number of bytes above `BASE`, so that `OFF+4k` (R111) is the sum of numbers
(00_scope.md R10). A host variable is a number, a label the index of an operation in the program (log 17). -/
inductive HostOp where
  /-- `wr OFF, V`: `MemWrite(OFF, 4, V)`. -/
  | wr (off : Nat) (v : Word32)
  /-- `rd OFF -> X`: `X <- MemRead(OFF, 4)`. -/
  | rd (off : Nat) (x : Nat)
  /-- `beq X, MASK, VAL, LABEL`: "if `(X & MASK) = VAL`, continue at `LABEL`. It makes no bus access." -/
  | beq (x : Nat) (mask val : Word32) (label : Nat)
  deriving DecidableEq, Repr

/-- The HOST agent: its program, the index of its next operation, and its variables, newest binding first. -/
structure HostAgent where
  program : List HostOp
  next : Nat
  vars : List (Nat × Word32)
  deriving DecidableEq, Repr

/-- The value of a host variable; one that was never read into is 0 (log 17). -/
def HostAgent.value (h : HostAgent) (x : Nat) : Word32 := ((h.vars.find? fun b => b.1 == x).map Prod.snd).getD 0#32

/-- The Block that `rdblk OFF -> X` has read: "block byte `4k+j` is `X_k[8j+7:8j]`" (R111). -/
def HostAgent.blockAt (h : HostAgent) (x : Nat) : Block :=
  Vector.ofFn fun i : Fin 16 => lane (h.value (x + i.val / 4)) (i.val % 4)

/-- The two agents of R30. -/
structure System where
  host : HostAgent
  engine : State
  deriving DecidableEq, Repr

/-- Who moves: "Any enabled agent may take the next step" (R30). -/
inductive Agent where
  | host
  | engine
  deriving DecidableEq, Repr

/-! ## Accesses at an offset (R12: `MemRead`, `MemWrite`) -/

/-- An offset as a window offset, none outside the window's 0x400 bytes (R79). -/
def windowOffset? (off : Nat) : Option Offset := if off < 0x400 then some (BitVec.ofNat 10 off) else none

/-- `MemWrite(off, 4, v)`. Outside the window no engine sees the access (R79; log 9). -/
def State.memWrite (s : State) (off : Nat) (v : Word32) : State :=
  match windowOffset? off with
  | some o => s.write 4 o v
  | none => s

/-- What `MemRead(off, 4)` does to the engine (R72). -/
def State.memReadEffect (s : State) (off : Nat) : State :=
  match windowOffset? off with
  | some o => s.readEffect 4 o
  | none => s

/-- What `MemRead(off, 4)` returns as the host's `n`-th read: the window's word (R72), and a free value outside the window
(log 24). -/
def State.memReadValue (s : State) (off n : Nat) : Word32 :=
  match windowOffset? off with
  | some o => s.readValue 4 o
  | none => Config.outsideWord off n

/-- One step of the HOST: one operation, and none once the program has ended. -/
def System.hostTurn (y : System) : System :=
  match y.host.program[y.host.next]? with
  | none => y
  | some (.wr off v) =>
    { host := { y.host with next := y.host.next + 1 }, engine := y.engine.memWrite off v }
  | some (.rd off x) =>
    { host := { y.host with next := y.host.next + 1, vars := (x, y.engine.memReadValue off y.host.vars.length) :: y.host.vars }
      engine := y.engine.memReadEffect off }
  | some (.beq x mask val label) =>
    { y with host := { y.host with next := if y.host.value x &&& mask = val then label else y.host.next + 1 } }

/-- One step of the chosen agent. -/
def System.turn (a : Agent) (y : System) : Host.Outcome System Fault Refusal :=
  match a with
  | .host => .next y.hostTurn
  | .engine =>
    match engineTurn y.engine with
    | .next t => .next { y with engine := t }
    | .fault r => .fault r
    | .refused r => .refused r

/-- The steps of a schedule, in order: any list of agents is an interleaving the rules allow (I14). -/
def System.run : List Agent → System → Host.Outcome System Fault Refusal
  | [], y => .next y
  | a :: rest, y =>
    match y.turn a with
    | .next z => z.run rest
    | .fault r => .fault r
    | .refused r => .refused r

/-! ## Pseudo-instructions (R111) -/

/-- A pseudo-instruction, or a plain host operation. `wait` polls into the variable it names. -/
inductive HostPseudo where
  | op (o : HostOp)
  /-- `cmd <command>`. -/
  | cmd (w : Word32)
  /-- `wait`. -/
  | wait (t : Nat)
  /-- `do <command>`. -/
  | doCmd (w : Word32) (t : Nat)
  /-- `wrblk OFF, H`. -/
  | wrblk (off : Nat) (h : Block)
  /-- `rdblk OFF -> X`: word `k` goes to variable `x + k`, and the block it has read is `HostAgent.blockAt x`. -/
  | rdblk (off : Nat) (x : Nat)
  /-- `clrerr`. -/
  | clrerr
  deriving DecidableEq, Repr

/-- `L: rd STATUS -> t` then `beq t, 0x1, 0x1, L`, placed at index `pos`. -/
def waitOps (pos t : Nat) : List HostOp := [.rd 0x004 t, .beq t 0x1#32 0x1#32 pos]

/-- The host operations a pseudo-instruction at index `pos` expands to (R111). -/
def HostPseudo.expand (pos : Nat) : HostPseudo → List HostOp
  | .op o => [o]
  | .cmd w => [.wr 0x000 w]
  | .wait t => waitOps pos t
  | .doCmd w t => .wr 0x000 w :: waitOps (pos + 1) t
  | .wrblk off h =>
    [.wr off (busWordAt h 0), .wr (off + 4) (busWordAt h 1), .wr (off + 8) (busWordAt h 2),
     .wr (off + 12) (busWordAt h 3)]
  | .rdblk off x => [.rd off x, .rd (off + 4) (x + 1), .rd (off + 8) (x + 2), .rd (off + 12) (x + 3)]
  | .clrerr => [.wr 0x008 0x00000000#32]

/-- A program of pseudo-instructions as host operations, its first one at index `pos`. -/
def expandProgram : (pos : Nat) → List HostPseudo → List HostOp
  | _, [] => []
  | pos, p :: ps => p.expand pos ++ expandProgram (pos + (p.expand pos).length) ps

end Sys2Proof.Machine
end

