-- ==== Sys2Proof/Machine/Platform.lean ====
section
/-! DEFINITION. A platform of several engines (spec/60_exceptions.md R256), the host address of each window
(spec/20_memory.md R79), and the latency parameter (spec/70_reset_and_hazards.md R289, R290). The engines share nothing:
"its register window ... is its whole programming interface" (R255). -/

namespace Sys2Proof.Machine

/-! ## Windows in the host's address space (R79) -/

/-- Host address `addr` lies in the window of engine `k`. -/
def inWindow (k addr : Nat) : Bool := Config.base k ≤ addr && addr < Config.base k + 0x400

/-- The window offset of an address in the window of engine `k`. -/
def windowOffset (k addr : Nat) : Offset := BitVec.ofNat 10 (addr - Config.base k)

/-- The engine, of the first `n`, whose window holds the address; none where the platform has no engine there. No
address lies in two windows (R256, `Config.windowIndex`). -/
def engineAt (n addr : Nat) : Option Nat := (List.range n).find? fun k => inWindow k addr

/-! ## Several engines (R256) -/

/-- The engines of a platform, engine `k` at index `k`. -/
structure Platform where
  engines : List State
  deriving DecidableEq, Repr

/-- Every engine right after its own reset: "They start independently" (R256). -/
def Platform.reset : Platform := ⟨List.replicate Config.numInstances State.reset⟩

/-- A host access of the platform: a read or a write at a host address. -/
inductive BusAccess where
  | read (size addr : Nat)
  | write (size addr : Nat) (v : Word32)
  deriving DecidableEq, Repr

/-- The host address of an access. -/
def BusAccess.addr : BusAccess → Nat
  | .read _ addr => addr
  | .write _ addr _ => addr

/-- The event an access is for the engine `k` whose window holds its address. -/
def BusAccess.toEvent (k : Nat) : BusAccess → Event
  | .read size addr => .read size (windowOffset k addr)
  | .write size addr v => .write size (windowOffset k addr) v

/-- Event `e` at engine `k`; every other engine is as before. -/
def Platform.apply (p : Platform) (k : Nat) (e : Event) : Host.Outcome Platform Fault Refusal :=
  match p.engines[k]? with
  | none => .next p
  | some s =>
    match applyEvent e s with
    | .next t => .next ⟨p.engines.set k t⟩
    | .fault r => .fault r
    | .refused r => .refused r

/-- A host access: an event of the engine whose window holds the address. Elsewhere "the engine fixes nothing else of
the host's address space" (R79): no engine changes. -/
def Platform.access (p : Platform) (a : BusAccess) : Host.Outcome Platform Fault Refusal :=
  match engineAt p.engines.length a.addr with
  | none => .next p
  | some k => p.apply k (a.toEvent k)

/-! ## Latency (R289, R290) -/

/-- The engine cycles the pending operation takes: `LAT` of its opcode, or GEN's (R289, R290). No rule reads it. -/
def latency : Pend → Nat
  | .none => 0
  | .gen => Config.genLatency
  | .cmd w => Config.commandLatency (opField w)

end Sys2Proof.Machine
end

