-- ==== Sys2Proof/Safety.lean ====
section
/-! DEFINITION. The terms the claims use: the reference S-box of spec/41_sbox.md R156, the invariants of
spec/10_state.md R50, reachable states, the check order of spec/60_exceptions.md R247 read from the word itself, and
the writer table of R51. -/

namespace Sys2Proof.Machine

/-! ## The S-box table (R156), as the spec prints it -/

/-- Row 0 of R156. -/
def sboxRow0 : List Byte :=
  [0x63#8, 0x7c#8, 0x77#8, 0x7b#8, 0xf2#8, 0x6b#8, 0x6f#8, 0xc5#8,
   0x30#8, 0x01#8, 0x67#8, 0x2b#8, 0xfe#8, 0xd7#8, 0xab#8, 0x76#8]

/-- Row 1 of R156. -/
def sboxRow1 : List Byte :=
  [0xca#8, 0x82#8, 0xc9#8, 0x7d#8, 0xfa#8, 0x59#8, 0x47#8, 0xf0#8,
   0xad#8, 0xd4#8, 0xa2#8, 0xaf#8, 0x9c#8, 0xa4#8, 0x72#8, 0xc0#8]

/-- Row 2 of R156. -/
def sboxRow2 : List Byte :=
  [0xb7#8, 0xfd#8, 0x93#8, 0x26#8, 0x36#8, 0x3f#8, 0xf7#8, 0xcc#8,
   0x34#8, 0xa5#8, 0xe5#8, 0xf1#8, 0x71#8, 0xd8#8, 0x31#8, 0x15#8]

/-- Row 3 of R156. -/
def sboxRow3 : List Byte :=
  [0x04#8, 0xc7#8, 0x23#8, 0xc3#8, 0x18#8, 0x96#8, 0x05#8, 0x9a#8,
   0x07#8, 0x12#8, 0x80#8, 0xe2#8, 0xeb#8, 0x27#8, 0xb2#8, 0x75#8]

/-- Row 4 of R156. -/
def sboxRow4 : List Byte :=
  [0x09#8, 0x83#8, 0x2c#8, 0x1a#8, 0x1b#8, 0x6e#8, 0x5a#8, 0xa0#8,
   0x52#8, 0x3b#8, 0xd6#8, 0xb3#8, 0x29#8, 0xe3#8, 0x2f#8, 0x84#8]

/-- Row 5 of R156. -/
def sboxRow5 : List Byte :=
  [0x53#8, 0xd1#8, 0x00#8, 0xed#8, 0x20#8, 0xfc#8, 0xb1#8, 0x5b#8,
   0x6a#8, 0xcb#8, 0xbe#8, 0x39#8, 0x4a#8, 0x4c#8, 0x58#8, 0xcf#8]

/-- Row 6 of R156. -/
def sboxRow6 : List Byte :=
  [0xd0#8, 0xef#8, 0xaa#8, 0xfb#8, 0x43#8, 0x4d#8, 0x33#8, 0x85#8,
   0x45#8, 0xf9#8, 0x02#8, 0x7f#8, 0x50#8, 0x3c#8, 0x9f#8, 0xa8#8]

/-- Row 7 of R156. -/
def sboxRow7 : List Byte :=
  [0x51#8, 0xa3#8, 0x40#8, 0x8f#8, 0x92#8, 0x9d#8, 0x38#8, 0xf5#8,
   0xbc#8, 0xb6#8, 0xda#8, 0x21#8, 0x10#8, 0xff#8, 0xf3#8, 0xd2#8]

/-- Row 8 of R156. -/
def sboxRow8 : List Byte :=
  [0xcd#8, 0x0c#8, 0x13#8, 0xec#8, 0x5f#8, 0x97#8, 0x44#8, 0x17#8,
   0xc4#8, 0xa7#8, 0x7e#8, 0x3d#8, 0x64#8, 0x5d#8, 0x19#8, 0x73#8]

/-- Row 9 of R156. -/
def sboxRow9 : List Byte :=
  [0x60#8, 0x81#8, 0x4f#8, 0xdc#8, 0x22#8, 0x2a#8, 0x90#8, 0x88#8,
   0x46#8, 0xee#8, 0xb8#8, 0x14#8, 0xde#8, 0x5e#8, 0x0b#8, 0xdb#8]

/-- Row A of R156. -/
def sboxRowA : List Byte :=
  [0xe0#8, 0x32#8, 0x3a#8, 0x0a#8, 0x49#8, 0x06#8, 0x24#8, 0x5c#8,
   0xc2#8, 0xd3#8, 0xac#8, 0x62#8, 0x91#8, 0x95#8, 0xe4#8, 0x79#8]

/-- Row B of R156. -/
def sboxRowB : List Byte :=
  [0xe7#8, 0xc8#8, 0x37#8, 0x6d#8, 0x8d#8, 0xd5#8, 0x4e#8, 0xa9#8,
   0x6c#8, 0x56#8, 0xf4#8, 0xea#8, 0x65#8, 0x7a#8, 0xae#8, 0x08#8]

/-- Row C of R156. -/
def sboxRowC : List Byte :=
  [0xba#8, 0x78#8, 0x25#8, 0x2e#8, 0x1c#8, 0xa6#8, 0xb4#8, 0xc6#8,
   0xe8#8, 0xdd#8, 0x74#8, 0x1f#8, 0x4b#8, 0xbd#8, 0x8b#8, 0x8a#8]

/-- Row D of R156. -/
def sboxRowD : List Byte :=
  [0x70#8, 0x3e#8, 0xb5#8, 0x66#8, 0x48#8, 0x03#8, 0xf6#8, 0x0e#8,
   0x61#8, 0x35#8, 0x57#8, 0xb9#8, 0x86#8, 0xc1#8, 0x1d#8, 0x9e#8]

/-- Row E of R156. -/
def sboxRowE : List Byte :=
  [0xe1#8, 0xf8#8, 0x98#8, 0x11#8, 0x69#8, 0xd9#8, 0x8e#8, 0x94#8,
   0x9b#8, 0x1e#8, 0x87#8, 0xe9#8, 0xce#8, 0x55#8, 0x28#8, 0xdf#8]

/-- Row F of R156. -/
def sboxRowF : List Byte :=
  [0x8c#8, 0xa1#8, 0x89#8, 0x0d#8, 0xbf#8, 0xe6#8, 0x42#8, 0x68#8,
   0x41#8, 0x99#8, 0x2d#8, 0x0f#8, 0xb0#8, 0x54#8, 0xbb#8, 0x16#8]

/-- The sixteen rows of R156 in order. -/
def sboxBytes : List Byte :=
  sboxRow0 ++ sboxRow1 ++ sboxRow2 ++ sboxRow3 ++ sboxRow4 ++ sboxRow5 ++ sboxRow6 ++ sboxRow7 ++
  sboxRow8 ++ sboxRow9 ++ sboxRowA ++ sboxRowB ++ sboxRowC ++ sboxRowD ++ sboxRowE ++ sboxRowF

/-- "Row `hi`, column `lo` is `SBOX[hi*16 + lo]`" (R156). -/
def sboxTable : SboxTable := Vector.ofFn fun i : Fin 256 => sboxBytes.getD i.val 0x00#8

/-! ## Invariants of the state (R50) -/

/-- What "Every reachable state satisfies" (R50), with the range of `ERR` (R249) and what cannot come before GEN (R281). -/
structure State.Inv (s : State) : Prop where
  /-- (a) `SBOX_VALID = 0` if and only if `PEND = Gen`. -/
  validIffGenDone : s.sboxValid = false ↔ s.pend = .gen
  /-- (a) "Then `SBOX` is all 0x00." -/
  sboxZero : s.sboxValid = false → s.sbox = Vector.replicate 256 0x00#8
  /-- (b) `SBOX_VALID = 1` implies `SBOX` is the table of R156. -/
  sboxIsTable : s.sboxValid = true → s.sbox = sboxTable
  /-- (c) `KEY_VALID = 0` implies `RK` is all 0x00. -/
  rkZero : s.keyValid = false → s.rk = Vector.replicate 176 0x00#8
  /-- (d) `KEY_VALID = 1` implies `RK = expand(K)` for `K = RK[0..16)`. -/
  rkIsSchedule : s.keyValid = true → s.rk = expand s.sbox (roundKey s.rk 0)
  /-- (e) `ERR = 0` implies `ERRINFO = 0`. -/
  noErrNoInfo : s.err = 0#4 → s.errInfo = 0#32
  /-- Codes 0x9 to 0xF are "never written" (R249). -/
  errDefined : s.err.toNat ≤ 8
  /-- A key is loaded only after GEN: "before GEN every CMD write raises BUSY" (90_conflicts.md C7). -/
  keyAfterGen : s.keyValid = true → s.sboxValid = true
  /-- No DIN word is written before GEN: until then "every CMD or DIN write raises BUSY" (70_reset_and_hazards.md R281). -/
  noFillBeforeGen : s.pend = .gen → s.dinFill = 0b0000#4

/-- A state the machine can be in: some steps after reset, whatever events the world has in store. -/
inductive Reachable : State → Prop where
  | reset (es : List Event) : Reachable (State.reset.setInbox es)
  | step (s t : State) : Reachable s → Sys2Proof.Machine.step s = .next t → Reachable t

/-! ## Runs -/

/-- Commands run one after another, each as its own ENGINE step (R226). -/
def runCommands : List Instr → State → Host.Outcome State Fault Refusal
  | [], s => .next s
  | i :: rest, s =>
    match exec i s with
    | .next t => runCommands rest t
    | .fault r => .fault r
    | .refused r => .refused r

/-- `subb; shrow; mixcol; addrk r` (R226). -/
def roundSteps (r : Nat) : List Instr := [.subb, .shrow, .mixcol, .addrk r]

/-- `n` steps of the machine. -/
def runSteps : Nat → State → Host.Outcome State Fault Refusal
  | 0, s => .next s
  | n + 1, s =>
    match step s with
    | .next t => runSteps n t
    | .fault r => .fault r
    | .refused r => .refused r

/-- The step commands of R226 that together do what ENC does. -/
def encAsSteps : List Instr :=
  [Instr.ldst, Instr.addrk 0] ++ [1, 2, 3, 4, 5, 6, 7, 8, 9].flatMap roundSteps ++
  [Instr.subb, Instr.shrow, Instr.addrk 10, Instr.stst]

/-- An event that is a host access. -/
def Event.isAccess : Event → Bool
  | .engine => false
  | .read _ _ => true
  | .write _ _ _ => true
  | .reset => false

/-- An event that clears a recorded error: a defined write to `ERR` (R246), or reset. -/
def Event.clearsError : Event → Bool
  | .engine => false
  | .read _ _ => false
  | .write size off _ => size == 4 && off == 0x008#10
  | .reset => true

/-! ## The check order of a command (R247), read from its word -/

/-- The first check of R247 that fails for command word `w`, none if the command is performed. -/
def firstFailedCheck (w : Word32) (s : State) : Option ErrCause :=
  if !opcodeRows.any (fun r => r.matchesWord w) then some .illegal
  else if opField w = 0x24#8 ∧ 10 < nField w then some .range
  else if opField w = 0x01#8 ∧ s.keyValid = true then some .keyLocked
  else if (opField w = 0x02#8 ∨ opField w = 0x24#8) ∧ s.keyValid = false then some .noKey
  else if opField w = 0x01#8 ∧ s.dinFill ≠ 0b1111#4 then some .shortKey
  else if (opField w = 0x02#8 ∨ opField w = 0x20#8) ∧ s.dinFill ≠ 0b1111#4 then some .trunc
  else none

/-- `raise` on the fields it may write (R242): the first error since the last clear is kept. -/
def afterError (s : State) (e : ErrCause) (info : Word32) : State :=
  { s with
    err := if s.err = 0#4 then e.code else s.err
    errInfo := if s.err = 0#4 then info else s.errInfo }

/-! ## The writer table (R51) -/

/-- The columns of R51. -/
inductive Element where
  | sbox
  | sboxValid
  | rk
  | keyValid
  | state
  | din
  | dinFill
  | dout
  | res
  | err
  | errInfo
  | pend
  deriving DecidableEq, Repr

/-- Two states agree on an element. -/
def Element.same : Element → State → State → Prop
  | .sbox, s, t => t.sbox = s.sbox
  | .sboxValid, s, t => t.sboxValid = s.sboxValid
  | .rk, s, t => t.rk = s.rk
  | .keyValid, s, t => t.keyValid = s.keyValid
  | .state, s, t => t.state = s.state
  | .din, s, t => t.din = s.din
  | .dinFill, s, t => t.dinFill = s.dinFill
  | .dout, s, t => t.dout = s.dout
  | .res, s, t => t.res = s.res
  | .err, s, t => t.err = s.err
  | .errInfo, s, t => t.errInfo = s.errInfo
  | .pend, s, t => t.pend = s.pend

/-- The elements a command's row of R51 has a cell for. "GEN, NOP, CLRKEY, GMUL2, GMUL3, GMUL, SBOXLU, SUBB, SHROW,
MIXCOL and STST can raise only ILLEGAL" (R241), which happens before a command is decoded. -/
def commandMayWrite : Instr → List Element
  | .nop => [.pend]
  | .ldkey => [.rk, .keyValid, .dinFill, .err, .errInfo, .pend]
  | .enc => [.state, .dinFill, .dout, .err, .errInfo, .pend]
  | .clrkey => [.rk, .keyValid, .state, .din, .dinFill, .dout, .pend]
  | .gmul2 _ => [.res, .pend]
  | .gmul3 _ => [.res, .pend]
  | .gmul _ _ => [.res, .pend]
  | .sboxlu _ => [.res, .pend]
  | .ldst => [.state, .dinFill, .err, .errInfo, .pend]
  | .subb => [.state, .pend]
  | .shrow => [.state, .pend]
  | .mixcol => [.state, .pend]
  | .addrk _ => [.state, .err, .errInfo, .pend]
  | .stst => [.dout, .pend]

/-- The elements the ENGINE step may write in a state (R51): GEN's row, or the pending command's. -/
def engineMayWrite (s : State) : List Element :=
  match s.pend with
  | .none => []
  | .gen => [.sbox, .sboxValid, .pend]
  | .cmd w =>
    match decode w with
    | .error _ => [.err, .errInfo, .pend]
    | .ok i => commandMayWrite i

/-- The elements a host write may write (R51): the rows "host write CMD", "host write ERR", "host write DINk" and
"host bad access". -/
def writeMayWrite (size : Nat) (off : Offset) : List Element :=
  if size = 4 ∧ off = 0x000#10 then [.err, .errInfo, .pend]
  else if size = 4 ∧ (off = 0x020#10 ∨ off = 0x024#10 ∨ off = 0x028#10 ∨ off = 0x02C#10) then
    [.din, .dinFill, .err, .errInfo]
  else [.err, .errInfo]

/-- The elements an event may write (R51). -/
def Event.mayWrite : Event → State → List Element
  | .engine, s => engineMayWrite s
  | .read size off, _ => if size = 4 ∧ off.toNat % 4 = 0 then [] else [.err, .errInfo]
  | .write size off _, _ => writeMayWrite size off
  | .reset, _ =>
    [.sbox, .sboxValid, .rk, .keyValid, .state, .din, .dinFill, .dout, .res, .err, .errInfo, .pend]

end Sys2Proof.Machine

namespace Sys2Proof

/-- The assembler line of a command, its operands as numerals (R109). -/
def Instr.asmLine : Instr → AsmLine
  | .nop => .nop
  | .ldkey => .ldkey
  | .enc => .enc
  | .clrkey => .clrkey
  | .gmul2 a => .gmul2 a.toNat
  | .gmul3 a => .gmul3 a.toNat
  | .gmul a b => .gmul a.toNat b.toNat
  | .sboxlu a => .sboxlu a.toNat
  | .ldst => .ldst
  | .subb => .subb
  | .shrow => .shrow
  | .mixcol => .mixcol
  | .addrk n => .addrk n
  | .stst => .stst

end Sys2Proof
end

