-- ==== Sys2Proof/Certificates/Slice0/Obligations.lean ====
section
/-! DEFINITION. The statements for the provers, from the numbered rules of spec/ (OBLIGATIONS.json lists them). -/

open Sys2Proof Sys2Proof.Machine

/-- One step is one event (R81): the oldest event of the inbox, and an ENGINE turn when none is left. The inbox and the
ENGINE's turn on an empty inbox are the model's choice (log 2). An ENGINE turn with a decoded command pending is `exec`
of that command. -/
def Obligations.StepRunsOneEvent : Prop :=
  (∀ s : State, s.inbox = [] → step s = engineTurn s) ∧
  (∀ (s : State) (es : List Event), s.inbox = .engine :: es → step s = engineTurn (s.setInbox es)) ∧
  (∀ (s : State) (es : List Event) (size : Nat) (off : Offset) (v : Word32), s.inbox = .write size off v :: es →
    step s = .next ((s.setInbox es).write size off v)) ∧
  (∀ (s : State) (es : List Event) (size : Nat) (off : Offset), s.inbox = .read size off :: es →
    step s = .next (((s.setInbox es).readEffect size off).reply (s.readValue size off))) ∧
  (∀ (s : State) (w : Word32) (i : Instr), s.pend = .cmd w → decode w = .ok i → s.inbox = [] →
    step s = exec i s) ∧
  (∀ (s : State) (w : Word32) (i : Instr) (es : List Event), s.pend = .cmd w → decode w = .ok i →
    s.inbox = .engine :: es → step s = exec i (s.setInbox es))

/-- R280: reset, at any time, sets every element to its reset value. (What stays of the model's own fields, log 7, is no
part of this statement.) -/
def Obligations.ResetSetsEveryElement : Prop :=
  ∀ (s : State) (es : List Event), (s = State.reset ∨ (∃ u : State, u.inbox = .reset :: es ∧ step u = .next s)) →
    s.sbox = Vector.replicate 256 0x00#8 ∧ s.rk = Vector.replicate 176 0x00#8 ∧ s.state = Vector.replicate 16 0x00#8 ∧
    s.din = Vector.replicate 16 0x00#8 ∧ s.dout = Vector.replicate 16 0x00#8 ∧ s.sboxValid = false ∧
    s.keyValid = false ∧ s.dinFill = 0b0000#4 ∧ s.res = 0x00#8 ∧ s.err = 0x0#4 ∧ s.errInfo = 0x00000000#32 ∧
    s.pend = .gen

/-- R281: a reset, at any time, leaves GEN pending and no error. Until GEN is done, whatever the host does, the engine is
busy, shows no S-box and rejects CMD and DIN writes; with an error recorded it keeps that error, and a CMD write is
discarded (R73). GEN then makes it ready. -/
def Obligations.FirstEngineStepAfterReset : Prop :=
  (∀ s : State, s.assertReset.Inv ∧ s.assertReset.pend = .gen ∧ s.assertReset.err = 0#4 ∧
    s.assertReset.statusWord = 0x00000001#32) ∧
  (∀ s : State, s.Inv → s.pend = .gen →
    s.statusWord = (if s.err = 0#4 then 0x00000001#32 else 0x00000009#32) ∧
    (∀ m : Fin 64, s.readReg (.sb m) = 0x00000000#32) ∧
    (∀ v : Word32, s.write 4 0x000#10 v =
      if s.err = 0#4 then { s with err := 0x2#4, errInfo := 0x00000000#32 } else s) ∧
    (∀ (k : Fin 4) (off : Offset) (v : Word32), off.toNat = 0x020 + 4 * k.val →
      s.write 4 off v = if s.err = 0#4 then { s with err := 0x2#4, errInfo := off.setWidth 32 } else s) ∧
    (∃ t : State, engineTurn s = .next t ∧ t = { s with sbox := sboxTable, sboxValid := true, pend := .none } ∧
      t.statusWord = (if s.err = 0#4 then 0x00000002#32 else 0x0000000A#32)))

/-- The invariant of R50 (with R249) holds right after reset. -/
def Obligations.ReachableInvariantAtReset : Prop :=
  ∀ es : List Event, (State.reset.setInbox es).Inv

/-- Every step, from every state with the invariant of R50 (with R249), keeps it. -/
def Obligations.StepKeepsStateInvariant : Prop :=
  ∀ s t : State, s.Inv → step s = .next t → t.Inv

/-- Every state reachable from reset, under every interleaving and every list of host accesses, has the invariant of R50
(with R249). -/
def Obligations.ReachableStatesSatisfyInvariant : Prop :=
  ∀ s : State, Reachable s → s.Inv

/-- R51: an event writes only the elements its row of the writer table has a cell for, and no event but those writes any.
The frame of every command, of GEN, and of every host access. -/
def Obligations.EventsWriteOnlyTheirElements : Prop :=
  ∀ (e : Event) (s t : State) (x : Element), applyEvent e s = .next t → x ∉ e.mayWrite s → x.same s t

/-- No step faults or refuses, from any state: "No behaviour is `stuck`". -/
def Obligations.EveryStepAnswersNext : Prop :=
  ∀ s : State, ∃ t : State, step s = .next t

/-- R288, with the model's order of events (log 2): whatever the host does, a pending operation ends within as many steps
as there are events to come and one; no access ends it. -/
def Obligations.PendingOperationCompletes : Prop :=
  (∀ s : State, s.pend ≠ .none →
    ∃ (n : Nat) (t : State), n ≤ s.inbox.length + 1 ∧ runSteps n s = .next t ∧ t.pend = .none) ∧
  (∀ (e : Event) (s t : State), e.isAccess = true → s.pend ≠ .none → applyEvent e s = .next t → t.pend = s.pend)

/-- R32, R158: after GEN nothing changes the S-box but reset. -/
def Obligations.SboxFixedAfterGen : Prop :=
  ∀ s t : State, s.Inv → s.sboxValid = true → step s = .next t → s.inbox.head? ≠ some .reset →
    t.sbox = s.sbox ∧ t.sboxValid = true

/-- R35: while a key is loaded RK does not change, until CLRKEY or reset ends the session and clears it. -/
def Obligations.KeyFixedWithinSession : Prop :=
  ∀ s t : State, s.keyValid = true → step s = .next t →
    (t.rk = s.rk ∧ t.keyValid = true) ∨
    (t.rk = Vector.replicate 176 0x00#8 ∧ t.keyValid = false ∧
      (s.inbox.head? = some .reset ∨ s.pend = .cmd 0x00000003#32))

/-- R46: the fields of STATUS. -/
def Obligations.StatusWordFields : Prop :=
  (∀ s : State,
    s.statusWord.getLsbD 0 = decide (s.pend ≠ .none) ∧
    s.statusWord.getLsbD 1 = s.sboxValid ∧
    s.statusWord.getLsbD 2 = s.keyValid ∧
    s.statusWord.getLsbD 3 = decide (s.err ≠ 0#4) ∧
    s.statusWord.extractLsb' 4 4 = s.dinFill ∧
    s.statusWord.extractLsb' 8 24 = 0#24) ∧
  State.reset.statusWord = 0x00000001#32 ∧ State.reset.gen.statusWord = 0x00000002#32

/-- R71: little-endian lanes in the DIN, DOUT, RK and SB windows, with the rule's examples. -/
def Obligations.BusLanesLittleEndian : Prop :=
  (∀ (s : State) (k j : Fin 4), (s.readReg (.din k)).extractLsb' (8 * j.val) 8 = s.din[4 * k.val + j.val]'(by omega) ∧
    (s.readReg (.dout k)).extractLsb' (8 * j.val) 8 = s.dout[4 * k.val + j.val]'(by omega)) ∧
  (∀ (s : State) (m : Fin 44) (j : Fin 4),
    (s.readReg (.rk m)).extractLsb' (8 * j.val) 8 = s.rk[4 * m.val + j.val]'(by omega)) ∧
  (∀ (s : State) (m : Fin 64) (j : Fin 4),
    (s.readReg (.sb m)).extractLsb' (8 * j.val) 8 = s.sbox[4 * m.val + j.val]'(by omega)) ∧
  (∀ s : State, s.din = #v[0x00#8, 0x11#8, 0x22#8, 0x33#8, 0x44#8, 0x55#8, 0x66#8, 0x77#8, 0x88#8, 0x99#8, 0xAA#8, 0xBB#8, 0xCC#8, 0xDD#8, 0xEE#8, 0xFF#8] →
    s.readReg (.din 0) = 0x33221100#32 ∧ s.readReg (.din 1) = 0x77665544#32 ∧ s.readReg (.din 2) = 0xBBAA9988#32 ∧
    s.readReg (.din 3) = 0xFFEEDDCC#32) ∧
  (∀ s : State, s.rk = expand sboxTable #v[0x00#8, 0x01#8, 0x02#8, 0x03#8, 0x04#8, 0x05#8, 0x06#8, 0x07#8, 0x08#8, 0x09#8, 0x0A#8, 0x0B#8, 0x0C#8, 0x0D#8, 0x0E#8, 0x0F#8] →
    s.readReg (.rk 1) = 0x07060504#32 ∧ s.readReg (.rk 4) = 0xFD74AAD6#32)

/-- R72, R74: an aligned 32-bit read returns the word of the register map and changes nothing; CMD and reserved offsets read
as zero. -/
def Obligations.HostReadsReturnRegisterMap : Prop :=
  ∀ (s : State) (off : Offset), off.toNat % 4 = 0 →
    s.readEffect 4 off = s ∧
    (off = 0x000#10 → s.readValue 4 off = 0x00000000#32) ∧
    (off = 0x004#10 → s.readValue 4 off = s.statusWord) ∧
    (off = 0x008#10 → s.readValue 4 off = s.err.setWidth 32) ∧
    (off = 0x00C#10 → s.readValue 4 off = s.errInfo) ∧
    (off = 0x010#10 → s.readValue 4 off = s.res.setWidth 32) ∧
    (off = 0x014#10 → s.readValue 4 off = 0x0000A128#32) ∧
    (∀ k j : Fin 4, off.toNat = 0x020 + 4 * k.val →
      (s.readValue 4 off).extractLsb' (8 * j.val) 8 = s.din[4 * k.val + j.val]'(by omega)) ∧
    (∀ k j : Fin 4, off.toNat = 0x030 + 4 * k.val →
      (s.readValue 4 off).extractLsb' (8 * j.val) 8 = s.dout[4 * k.val + j.val]'(by omega)) ∧
    (∀ (m : Fin 44) (j : Fin 4), off.toNat = 0x100 + 4 * m.val →
      (s.readValue 4 off).extractLsb' (8 * j.val) 8 = s.rk[4 * m.val + j.val]'(by omega)) ∧
    (∀ (m : Fin 64) (j : Fin 4), off.toNat = 0x200 + 4 * m.val →
      (s.readValue 4 off).extractLsb' (8 * j.val) 8 = s.sbox[4 * m.val + j.val]'(by omega)) ∧
    ((0x018 ≤ off.toNat ∧ off.toNat < 0x020) ∨ (0x040 ≤ off.toNat ∧ off.toNat < 0x100) ∨
      (0x1B0 ≤ off.toNat ∧ off.toNat < 0x200) ∨ 0x300 ≤ off.toNat → s.readValue 4 off = 0x00000000#32)

/-- R73: what an aligned 32-bit write does, offset by offset. -/
def Obligations.HostWriteCases : Prop :=
  ∀ (s : State) (off : Offset) (v : Word32),
    (off = 0x000#10 → s.write 4 off v =
      if s.err ≠ 0#4 then s
      else if s.pend ≠ .none then afterError s .busy 0x00000000#32
      else { s with pend := .cmd v }) ∧
    (off = 0x008#10 → s.write 4 off v = { s with err := 0x0#4, errInfo := 0x00000000#32 }) ∧
    (∀ k : Fin 4, off.toNat = 0x020 + 4 * k.val →
      (s.pend ≠ .none → s.write 4 off v = afterError s .busy (off.setWidth 32)) ∧
      (s.pend = .none → ∃ (d : Block) (f : BitVec 4),
        s.write 4 off v = { s with din := d, dinFill := f } ∧
        (∀ j : Fin 4, d[4 * k.val + j.val]'(by omega) = v.extractLsb' (8 * j.val) 8) ∧
        (∀ i : Fin 16, i.val / 4 ≠ k.val → d[i] = s.din[i]) ∧
        (∀ j : Fin 4, f.getLsbD j.val = (decide (j = k) || s.dinFill.getLsbD j.val)))) ∧
    (off.toNat % 4 = 0 → off ≠ 0x000#10 → off ≠ 0x008#10 → (∀ k : Fin 4, off.toNat ≠ 0x020 + 4 * k.val) →
      s.write 4 off v = afterError s .access (off.setWidth 32))

/-- R75: an access of another size, or not aligned, raises ACCESS whatever its target, and a read then returns 0. -/
def Obligations.UndefinedAccessesRaiseAccess : Prop :=
  ∀ (s : State) (size : Nat) (off : Offset) (v : Word32), size ≠ 4 ∨ off.toNat % 4 ≠ 0 →
    s.write size off v = afterError s .access (off.setWidth 32) ∧
    s.readEffect size off = afterError s .access (off.setWidth 32) ∧
    s.readValue size off = 0x00000000#32

/-- R286: while an operation is pending, host accesses, however many, leave every result register as it was before the
operation. -/
def Obligations.StaleReadsWhileBusy : Prop :=
  ∀ (es rest : List Event) (s : State), (∀ e ∈ es, e.isAccess = true) → s.pend ≠ .none → s.inbox = es ++ rest →
    ∃ t : State, runSteps es.length s = .next t ∧ t.pend = s.pend ∧ t.inbox = rest ∧ t.res = s.res ∧ t.dout = s.dout ∧
      t.rk = s.rk ∧ t.sbox = s.sbox ∧ t.keyValid = s.keyValid ∧ t.dinFill = s.dinFill ∧ t.state = s.state ∧
      t.din = s.din ∧ t.sboxValid = s.sboxValid

/-- The decode vectors V-ENC of 95_test_vectors.md. -/
def Obligations.CommandWordsDecode : Prop :=
  decode 0x00000000#32 = .ok .nop ∧ decode 0x00000001#32 = .ok .ldkey ∧ decode 0x00000002#32 = .ok .enc ∧
  decode 0x00000003#32 = .ok .clrkey ∧ decode 0x00005710#32 = .ok (.gmul2 0x57#8) ∧
  decode 0x00005711#32 = .ok (.gmul3 0x57#8) ∧ decode 0x00835712#32 = .ok (.gmul 0x57#8 0x83#8) ∧
  decode 0x00FF0012#32 = .ok (.gmul 0x00#8 0xFF#8) ∧ decode 0x00005313#32 = .ok (.sboxlu 0x53#8) ∧
  decode 0x00000020#32 = .ok .ldst ∧ decode 0x00000021#32 = .ok .subb ∧ decode 0x00000022#32 = .ok .shrow ∧
  decode 0x00000023#32 = .ok .mixcol ∧ decode 0x00000A24#32 = .ok (.addrk 10) ∧
  decode 0x00000B24#32 = .ok (.addrk 11) ∧ decode 0x00000025#32 = .ok .stst

/-- Decoding an encoded command gives it back, with every operand at every value the encoding admits. -/
def Obligations.DecodeOfEncode : Prop :=
  ∀ i : Instr, i.wellFormed = true → decode (encode i) = .ok i

/-- Encoding a decoded word gives the word back: each command word has one meaning, and each meaning one word. -/
def Obligations.EncodeOfDecode : Prop :=
  ∀ (w : Word32) (i : Instr), decode w = .ok i → encode i = w ∧ i.wellFormed = true

/-- R105 against opcode_table.json: a word decodes exactly when it has a row's pattern, and no word has two. -/
def Obligations.WordsDecodeByOneTableRow : Prop :=
  (∀ w : Word32, (∃ i : Instr, decode w = .ok i) ↔ ∃ r ∈ opcodeRows, w &&& r.mask = r.matchBits) ∧
  (∀ w : Word32, ∀ r ∈ opcodeRows, ∀ r' ∈ opcodeRows, w &&& r.mask = r.matchBits → w &&& r'.mask = r'.matchBits →
    r = r')

/-- R106: every word with an undefined OP or a must-be-zero bit set raises ILLEGAL with the word and has no other effect. -/
def Obligations.IllegalWordsRaise : Prop :=
  (∀ (s : State) (w : Word32), s.pend = .cmd w → (∀ r ∈ opcodeRows, w &&& r.mask ≠ r.matchBits) →
    engineTurn s = .next { afterError s .illegal w with pend := .none }) ∧
  (∀ w ∈ [0x00000004#32, 0x01000002#32, 0x00001024#32, 0x0000FF01#32], ∀ r ∈ opcodeRows, w &&& r.mask ≠ r.matchBits)

/-- R109: an assembler line with legal numerals assembles to the command's word, and the assembler refuses the others. -/
def Obligations.AssemblerLines : Prop :=
  (∀ i : Instr, assemble i.asmLine = if i.assemblable then some (encode i) else none) ∧
  (∀ a : Nat, 255 < a → assemble (.gmul2 a) = none ∧ assemble (.gmul3 a) = none ∧ assemble (.sboxlu a) = none ∧
    (∀ b : Nat, assemble (.gmul a b) = none ∧ assemble (.gmul b a) = none)) ∧
  (∀ v : Word32, assemble (.word v) = some v) ∧
  assemble (.gmul 0x57 0x83) = some 0x00835712#32 ∧ assemble (.addrk 10) = some 0x00000A24#32 ∧
  assemble (.sboxlu 0x53) = some 0x00005313#32

/-- R131, R132: doubling and tripling in the field, as integers. -/
def Obligations.Times2Times3 : Prop :=
  (∀ b : Byte, (times2 b).toNat = if b.toNat < 128 then 2 * b.toNat else (2 * b.toNat - 256) ^^^ 0x1B) ∧
  (∀ b : Byte, times3 b = times2 b ^^^ b) ∧
  times2 0x00#8 = 0x00#8 ∧ times2 0x80#8 = 0x1B#8 ∧ times2 0xFF#8 = 0xE5#8 ∧ times2 0x7F#8 = 0xFE#8 ∧
  times2 0x57#8 = 0xAE#8 ∧ times3 0x00#8 = 0x00#8 ∧ times3 0x80#8 = 0x9B#8 ∧ times3 0xFF#8 = 0x1A#8 ∧
  times3 0x01#8 = 0x03#8 ∧ times3 0x57#8 = 0xF9#8

/-- R133: the product is the XOR of `a` doubled `i` times, over the set bits `i` of `b`, with the rule's consequences. -/
def Obligations.GmulSumsDoublings : Prop :=
  (∀ a b : Byte, gmul a b =
    (List.range 8).foldl (fun r i => if b.getLsbD i then r ^^^ times2^[i] a else r) 0x00#8) ∧
  (∀ a : Byte, gmul a 0x02#8 = times2 a ∧ gmul a 0x03#8 = times3 a ∧ gmul a 0x01#8 = a) ∧
  (∀ b : Byte, gmul 0x00#8 b = 0x00#8 ∧ gmul b 0x00#8 = 0x00#8 ∧ gmul 0x01#8 b = b) ∧
  gmul 0xFF#8 0xFF#8 = 0x13#8 ∧ gmul 0x80#8 0x80#8 = 0x9A#8 ∧ gmul 0x57#8 0x83#8 = 0xC1#8

/-- R134: the field laws of the multiplier, and that 0x03 generates the nonzero elements. -/
def Obligations.GmulFieldLaws : Prop :=
  (∀ a b : Byte, gmul a b = gmul b a) ∧
  (∀ a b c : Byte, gmul (gmul a b) c = gmul a (gmul b c)) ∧
  (∀ a : Byte, gmul a 0x01#8 = a) ∧
  (∀ a : Byte, gmul a 0x00#8 = 0x00#8) ∧
  (∀ a b c : Byte, gmul a (b ^^^ c) = gmul a b ^^^ gmul a c) ∧
  (∀ a : Byte, a ≠ 0x00#8 → ∃! c : Byte, gmul a c = 0x01#8) ∧
  (∀ a : Byte, a ≠ 0x00#8 → ∃! k : Nat, k < 255 ∧ times3^[k] 0x01#8 = a) ∧
  times3^[255] 0x01#8 = 0x01#8 ∧ gmul 0x03#8 0xF6#8 = 0x01#8

/-- R137: the command, from the decoded form and from its word. -/
def Obligations.Gmul2Command : Prop :=
  (∀ (a : Byte) (s : State), exec (.gmul2 a) s = .next { s with res := times2 a, pend := .none }) ∧
  (∀ (w : Word32) (s : State), s.pend = .cmd w → opField w = 0x10#8 →
    engineTurn s = .next (if w.extractLsb' 16 16 = 0#16 then { s with res := times2 (w.extractLsb' 8 8), pend := .none }
      else { afterError s .illegal w with pend := .none })) ∧
  encode (.gmul2 0x57#8) = 0x00005710#32 ∧ times2 0x57#8 = 0xAE#8 ∧ times2 0x80#8 = 0x1B#8 ∧ times2 0x00#8 = 0x00#8

/-- R138: the command, from the decoded form and from its word. -/
def Obligations.Gmul3Command : Prop :=
  (∀ (a : Byte) (s : State), exec (.gmul3 a) s = .next { s with res := times3 a, pend := .none }) ∧
  (∀ (w : Word32) (s : State), s.pend = .cmd w → opField w = 0x11#8 →
    engineTurn s = .next (if w.extractLsb' 16 16 = 0#16 then { s with res := times3 (w.extractLsb' 8 8), pend := .none }
      else { afterError s .illegal w with pend := .none })) ∧
  encode (.gmul3 0x57#8) = 0x00005711#32 ∧ times3 0x57#8 = 0xF9#8 ∧ times3 0xFF#8 = 0x1A#8 ∧ times3 0x00#8 = 0x00#8

/-- R139: the command, from the decoded form and from its word. -/
def Obligations.GmulCommand : Prop :=
  (∀ (a b : Byte) (s : State), exec (.gmul a b) s = .next { s with res := gmul a b, pend := .none }) ∧
  (∀ (w : Word32) (s : State), s.pend = .cmd w → opField w = 0x12#8 →
    engineTurn s = .next (if w.extractLsb' 24 8 = 0#8 then { s with res := gmul (w.extractLsb' 8 8) (w.extractLsb' 16 8), pend := .none }
      else { afterError s .illegal w with pend := .none })) ∧
  encode (.gmul 0x57#8 0x83#8) = 0x00835712#32 ∧ gmul 0x57#8 0x83#8 = 0xC1#8 ∧ gmul 0x03#8 0xF6#8 = 0x01#8 ∧
  (∀ a : Byte, gmul a 0x00#8 = 0x00#8 ∧ gmul 0x00#8 a = 0x00#8 ∧ gmul a 0x01#8 = a) ∧
  (∀ a b : Byte, gmul a b = gmul b a)

/-- R150, R151: the 8-bit left rotation and the affine transform, with the rules' examples. -/
def Obligations.RotationAndAffine : Prop :=
  (∀ (x : Byte) (n : Nat), 1 ≤ n → n ≤ 7 → rotl8 x n = x.rotateLeft n) ∧
  (∀ q : Byte, xformed q = q ^^^ q.rotateLeft 1 ^^^ q.rotateLeft 2 ^^^ q.rotateLeft 3 ^^^ q.rotateLeft 4) ∧
  (∀ q : Byte, affine q = xformed q ^^^ 0x63#8) ∧
  rotl8 0x81#8 1 = 0x03#8 ∧ rotl8 0x81#8 4 = 0x18#8 ∧ affine 0x00#8 = 0x63#8 ∧ affine 0x01#8 = 0x7C#8

/-- R156: whatever the array held before, GEN leaves the table the spec prints, and raises no error (R153). -/
def Obligations.GenFillsSboxTable : Prop :=
  ∀ s : State, s.pend = .gen →
    engineTurn s = .next { s with sbox := sboxTable, sboxValid := true, pend := .none }

/-- R154: the walk of GEN. -/
def Obligations.WalkVisitsEveryNonzeroByte : Prop :=
  (∀ k : Nat, gmul (times3^[k] 0x01#8) ((fun q => gmul q inv3)^[k] 0x01#8) = 0x01#8) ∧
  (∀ v : Byte, v ≠ 0x00#8 → ∃! k : Nat, k < 255 ∧ times3^[k] 0x01#8 = v) ∧
  times3^[255] 0x01#8 = 0x01#8 ∧ (fun q => gmul q inv3)^[255] 0x01#8 = 0x01#8 ∧
  (∀ (fuel : Nat) (t : SboxTable), 255 ≤ fuel → walk fuel 0x01#8 0x01#8 t = walk 255 0x01#8 0x01#8 t) ∧
  affine ((fun q => gmul q inv3)^[0] 0x01#8) = 0x7C#8 ∧
  times3^[1] 0x01#8 = 0x03#8 ∧ affine ((fun q => gmul q inv3)^[1] 0x01#8) = 0x7B#8 ∧
  times3^[2] 0x01#8 = 0x05#8 ∧ affine ((fun q => gmul q inv3)^[2] 0x01#8) = 0x6B#8 ∧
  times3^[3] 0x01#8 = 0x0F#8 ∧ affine ((fun q => gmul q inv3)^[3] 0x01#8) = 0x76#8 ∧
  times3^[254] 0x01#8 = 0xF6#8 ∧ affine ((fun q => gmul q inv3)^[254] 0x01#8) = 0x42#8

/-- R155: the table is the affine transform of the field inverse. -/
def Obligations.SboxClosedForm : Prop :=
  ∀ v c : Byte, (v = 0x00#8 ∧ c = 0x00#8) ∨ gmul v c = 0x01#8 → sboxAt sboxTable v = affine c

/-- R157: the table is a permutation without fixed or opposite fixed points. -/
def Obligations.SboxTableProperties : Prop :=
  (∀ u v : Byte, sboxAt sboxTable u = sboxAt sboxTable v → u = v) ∧
  (∀ y : Byte, ∃ v : Byte, sboxAt sboxTable v = y) ∧
  sboxAt sboxTable 0x00#8 = 0x63#8 ∧
  (∀ v : Byte, sboxAt sboxTable v ≠ v ∧ sboxAt sboxTable v ≠ v ^^^ 0xFF#8) ∧
  sboxAt sboxTable 0xFF#8 = 0x16#8 ∧ sboxAt sboxTable 0x80#8 = 0xCD#8

/-- R159: the command, from the decoded form and from its word; in a state with the invariant of R50 it reads the table. -/
def Obligations.SboxluCommand : Prop :=
  (∀ (a : Byte) (s : State), exec (.sboxlu a) s = .next { s with res := sboxAt s.sbox a, pend := .none }) ∧
  (∀ (w : Word32) (s : State), s.pend = .cmd w → opField w = 0x13#8 →
    engineTurn s = .next (if w.extractLsb' 16 16 = 0#16 then { s with res := sboxAt s.sbox (w.extractLsb' 8 8), pend := .none }
      else { afterError s .illegal w with pend := .none })) ∧
  (∀ (w : Word32) (s : State), s.Inv → s.pend = .cmd w → s.sbox = sboxTable) ∧
  encode (.sboxlu 0x53#8) = 0x00005313#32 ∧ sboxAt sboxTable 0x53#8 = 0xED#8 ∧ sboxAt sboxTable 0x00#8 = 0x63#8 ∧
  sboxAt sboxTable 0xFF#8 = 0x16#8

/-- R170, R171, R172: the round constants, RotWord and SubWord. -/
def Obligations.KeyScheduleOperations : Prop :=
  rcon = [0x01#8, 0x02#8, 0x04#8, 0x08#8, 0x10#8, 0x20#8, 0x40#8, 0x80#8, 0x1B#8, 0x36#8] ∧
  (∀ i : Nat, i < 9 → rconAt (i + 1) = times2 (rconAt i)) ∧
  (∀ q : Quad, rotWord q = ⟨q.b1, q.b2, q.b3, q.b0⟩) ∧
  (∀ (t : SboxTable) (q : Quad), subWord t q = ⟨sboxAt t q.b0, sboxAt t q.b1, sboxAt t q.b2, sboxAt t q.b3⟩) ∧
  rotWord ⟨0x0C#8, 0x0D#8, 0x0E#8, 0x0F#8⟩ = ⟨0x0D#8, 0x0E#8, 0x0F#8, 0x0C#8⟩ ∧
  subWord sboxTable ⟨0x0D#8, 0x0E#8, 0x0F#8, 0x0C#8⟩ = ⟨0xD7#8, 0xAB#8, 0x76#8, 0xFE#8⟩

/-- R174: the recurrence of the schedule's 4-byte words, for every S-box. -/
def Obligations.KeyWordRecurrence : Prop :=
  ∀ (t : SboxTable) (key : Block) (m : Nat), m < 44 →
    (m < 4 → quadAt (expand t key) (4 * m) = quadAt key (4 * m)) ∧
    (4 ≤ m → m % 4 = 0 → quadAt (expand t key) (4 * m) =
      xorQuad (xorQuad (quadAt (expand t key) (4 * (m - 4))) (subWord t (rotWord (quadAt (expand t key) (4 * (m - 1))))))
        ⟨rconAt (m / 4 - 1), 0x00#8, 0x00#8, 0x00#8⟩) ∧
    (4 ≤ m → m % 4 ≠ 0 → quadAt (expand t key) (4 * m) =
      xorQuad (quadAt (expand t key) (4 * (m - 4))) (quadAt (expand t key) (4 * (m - 1))))

/-- R175: the round keys are 16-byte slices of the schedule, and the first is the master key. -/
def Obligations.RoundKeyZeroIsMasterKey : Prop :=
  (∀ (rk : Schedule) (i : Fin 11) (j : Fin 16), (roundKey rk i)[j] = rk[16 * i.val + j.val]'(by omega)) ∧
  (∀ (t : SboxTable) (key : Block), roundKey (expand t key) 0 = key)

/-- R176: LDKEY, from the decoded form and from its word, its errors in their order. -/
def Obligations.LdkeyCommand : Prop :=
  (∀ s : State, s.keyValid = false → s.dinFill = 0b1111#4 →
    exec .ldkey s = .next { s with rk := expand s.sbox s.din, keyValid := true, dinFill := 0b0000#4, pend := .none }) ∧
  (∀ (w : Word32) (s : State), s.pend = .cmd w → opField w = 0x01#8 →
    engineTurn s = .next (
      if w.extractLsb' 8 24 ≠ 0#24 then { afterError s .illegal w with pend := .none }
      else if s.keyValid = true then { afterError s .keyLocked w with pend := .none }
      else if s.dinFill ≠ 0b1111#4 then { afterError s .shortKey w with pend := .none }
      else { s with rk := expand s.sbox s.din, keyValid := true, dinFill := 0b0000#4, pend := .none })) ∧
  encode .ldkey = 0x00000001#32 ∧
  roundKey (expand sboxTable #v[0x00#8, 0x01#8, 0x02#8, 0x03#8, 0x04#8, 0x05#8, 0x06#8, 0x07#8, 0x08#8, 0x09#8, 0x0A#8, 0x0B#8, 0x0C#8, 0x0D#8, 0x0E#8, 0x0F#8]) 10 =
    #v[0x13#8, 0x11#8, 0x1D#8, 0x7F#8, 0xE3#8, 0x94#8, 0x4A#8, 0x17#8, 0xF3#8, 0x07#8, 0xA7#8, 0x8B#8, 0x4D#8, 0x2B#8, 0x30#8, 0xC5#8] ∧
  roundKey (expand sboxTable (Vector.replicate 16 0x00#8)) 1 =
    #v[0x62#8, 0x63#8, 0x63#8, 0x63#8, 0x62#8, 0x63#8, 0x63#8, 0x63#8, 0x62#8, 0x63#8, 0x63#8, 0x63#8, 0x62#8, 0x63#8, 0x63#8, 0x63#8]

/-- R177: CLRKEY, from the decoded form and from its word. -/
def Obligations.ClrkeyCommand : Prop :=
  (∀ s : State, ∃ t : State, exec .clrkey s = .next t ∧
    t = { s with rk := Vector.replicate 176 0x00#8, keyValid := false, state := Vector.replicate 16 0x00#8,
                  din := Vector.replicate 16 0x00#8, dinFill := 0b0000#4, dout := Vector.replicate 16 0x00#8,
                  pend := .none } ∧
    (∀ m : Fin 44, t.readReg (.rk m) = 0x00000000#32) ∧
    (s.sboxValid = true → s.err = 0#4 → t.statusWord = 0x00000002#32)) ∧
  (∀ (w : Word32) (s : State), s.pend = .cmd w → opField w = 0x03#8 →
    engineTurn s = if w.extractLsb' 8 24 = 0#24 then exec .clrkey s
      else .next { afterError s .illegal w with pend := .none }) ∧
  encode .clrkey = 0x00000003#32

/-- R190: SubBytes looks up each byte. -/
def Obligations.SubBytesRule : Prop :=
  (∀ (t : SboxTable) (b : Block) (i : Fin 16), (subBytes t b)[i] = sboxAt t b[i]) ∧
  Function.Bijective (subBytes sboxTable) ∧
  subBytes sboxTable (Vector.replicate 16 0x00#8) = Vector.replicate 16 0x63#8 ∧
  subBytes sboxTable #v[0x00#8, 0x10#8, 0x20#8, 0x30#8, 0x40#8, 0x50#8, 0x60#8, 0x70#8, 0x80#8, 0x90#8, 0xA0#8, 0xB0#8, 0xC0#8, 0xD0#8, 0xE0#8, 0xF0#8] =
    #v[0x63#8, 0xCA#8, 0xB7#8, 0x04#8, 0x09#8, 0x53#8, 0xD0#8, 0x51#8, 0xCD#8, 0x60#8, 0xE0#8, 0xE7#8, 0xBA#8, 0x70#8, 0xE1#8, 0x8C#8]

/-- R191: ShiftRows rotates row `r` left by `r`. -/
def Obligations.ShiftRowsRule : Prop :=
  (∀ (b : Block) (r c : Fin 4),
    (shiftRows b)[r.val + 4 * c.val]'(by omega) = b[r.val + 4 * ((c.val + r.val) % 4)]'(by omega)) ∧
  (∀ (b : Block) (c : Fin 4), (shiftRows b)[4 * c.val]'(by omega) = b[4 * c.val]'(by omega)) ∧
  (∀ x : Byte, shiftRows (Vector.replicate 16 x) = Vector.replicate 16 x) ∧
  shiftRows #v[0x00#8, 0x01#8, 0x02#8, 0x03#8, 0x04#8, 0x05#8, 0x06#8, 0x07#8, 0x08#8, 0x09#8, 0x0A#8, 0x0B#8, 0x0C#8, 0x0D#8, 0x0E#8, 0x0F#8] =
    #v[0x00#8, 0x05#8, 0x0A#8, 0x0F#8, 0x04#8, 0x09#8, 0x0E#8, 0x03#8, 0x08#8, 0x0D#8, 0x02#8, 0x07#8, 0x0C#8, 0x01#8, 0x06#8, 0x0B#8] ∧
  shiftRows #v[0x63#8, 0xCA#8, 0xB7#8, 0x04#8, 0x09#8, 0x53#8, 0xD0#8, 0x51#8, 0xCD#8, 0x60#8, 0xE0#8, 0xE7#8, 0xBA#8, 0x70#8, 0xE1#8, 0x8C#8] =
    #v[0x63#8, 0x53#8, 0xE0#8, 0x8C#8, 0x09#8, 0x60#8, 0xE1#8, 0x04#8, 0xCD#8, 0x70#8, 0xB7#8, 0x51#8, 0xBA#8, 0xCA#8, 0xD0#8, 0xE7#8]

/-- R192: MixColumns is the matrix product over GF(2^8), written here with the field product of R133. -/
def Obligations.MixColumnsRule : Prop :=
  (∀ (b : Block) (c : Fin 4),
    (mixColumns b)[4 * c.val]'(by omega) =
      gmul 0x02#8 (b[4 * c.val]'(by omega)) ^^^ gmul 0x03#8 (b[4 * c.val + 1]'(by omega)) ^^^
        b[4 * c.val + 2]'(by omega) ^^^ b[4 * c.val + 3]'(by omega) ∧
    (mixColumns b)[4 * c.val + 1]'(by omega) =
      b[4 * c.val]'(by omega) ^^^ gmul 0x02#8 (b[4 * c.val + 1]'(by omega)) ^^^
        gmul 0x03#8 (b[4 * c.val + 2]'(by omega)) ^^^ b[4 * c.val + 3]'(by omega) ∧
    (mixColumns b)[4 * c.val + 2]'(by omega) =
      b[4 * c.val]'(by omega) ^^^ b[4 * c.val + 1]'(by omega) ^^^ gmul 0x02#8 (b[4 * c.val + 2]'(by omega)) ^^^
        gmul 0x03#8 (b[4 * c.val + 3]'(by omega)) ∧
    (mixColumns b)[4 * c.val + 3]'(by omega) =
      gmul 0x03#8 (b[4 * c.val]'(by omega)) ^^^ b[4 * c.val + 1]'(by omega) ^^^ b[4 * c.val + 2]'(by omega) ^^^
        gmul 0x02#8 (b[4 * c.val + 3]'(by omega))) ∧
  (∀ x : Byte, mixColumn ⟨x, x, x, x⟩ = ⟨x, x, x, x⟩) ∧
  mixColumn ⟨0x00#8, 0x00#8, 0x00#8, 0x00#8⟩ = ⟨0x00#8, 0x00#8, 0x00#8, 0x00#8⟩ ∧
  mixColumn ⟨0x01#8, 0x00#8, 0x00#8, 0x00#8⟩ = ⟨0x02#8, 0x01#8, 0x01#8, 0x03#8⟩ ∧
  mixColumn ⟨0xDB#8, 0x13#8, 0x53#8, 0x45#8⟩ = ⟨0x8E#8, 0x4D#8, 0xA1#8, 0xBC#8⟩ ∧
  mixColumns #v[0x63#8, 0x53#8, 0xE0#8, 0x8C#8, 0x09#8, 0x60#8, 0xE1#8, 0x04#8, 0xCD#8, 0x70#8, 0xB7#8, 0x51#8, 0xBA#8, 0xCA#8, 0xD0#8, 0xE7#8] =
    #v[0x5F#8, 0x72#8, 0x64#8, 0x15#8, 0x57#8, 0xF5#8, 0xBC#8, 0x92#8, 0xF7#8, 0xBE#8, 0x3B#8, 0x29#8, 0x1D#8, 0xB9#8, 0xF9#8, 0x1A#8]

/-- R193: AddRoundKey XORs a round key into the State. -/
def Obligations.AddRoundKeyRule : Prop :=
  (∀ (rk : Schedule) (b : Block) (i : Fin 11) (j : Fin 16),
    (addRoundKey rk b i)[j] = b[j] ^^^ rk[16 * i.val + j.val]'(by omega)) ∧
  (∀ (rk : Schedule) (b : Block) (i : Fin 11), roundKey rk i = Vector.replicate 16 0x00#8 → addRoundKey rk b i = b) ∧
  addRoundKey (expand sboxTable #v[0x00#8, 0x01#8, 0x02#8, 0x03#8, 0x04#8, 0x05#8, 0x06#8, 0x07#8, 0x08#8, 0x09#8, 0x0A#8, 0x0B#8, 0x0C#8, 0x0D#8, 0x0E#8, 0x0F#8])
      #v[0x5F#8, 0x72#8, 0x64#8, 0x15#8, 0x57#8, 0xF5#8, 0xBC#8, 0x92#8, 0xF7#8, 0xBE#8, 0x3B#8, 0x29#8, 0x1D#8, 0xB9#8, 0xF9#8, 0x1A#8] 1 =
    #v[0x89#8, 0xD8#8, 0x10#8, 0xE8#8, 0x85#8, 0x5A#8, 0xCE#8, 0x68#8, 0x2D#8, 0x18#8, 0x43#8, 0xD8#8, 0xCB#8, 0x12#8, 0x8F#8, 0xE4#8]

/-- R194: the laws of the transforms. -/
def Obligations.RoundTransformLaws : Prop :=
  (∀ (rk : Schedule) (b : Block) (i : Fin 11), addRoundKey rk (addRoundKey rk b i) i = b) ∧
  Function.Bijective shiftRows ∧
  (∀ b : Block, shiftRows (shiftRows (shiftRows (shiftRows b))) = b) ∧
  (∃ b : Block, mixColumns (mixColumns b) ≠ b) ∧
  (∀ b : Block, mixColumns (mixColumns (mixColumns (mixColumns b))) = b) ∧
  (∀ (t : SboxTable) (b : Block), subBytes t (shiftRows b) = shiftRows (subBytes t b))

/-- R200: LDST, from the decoded form and from its word. -/
def Obligations.LdstCommand : Prop :=
  (∀ s : State, s.dinFill = 0b1111#4 →
    exec .ldst s = .next { s with state := s.din, dinFill := 0b0000#4, pend := .none }) ∧
  (∀ (w : Word32) (s : State), s.pend = .cmd w → opField w = 0x20#8 →
    engineTurn s = .next (
      if w.extractLsb' 8 24 ≠ 0#24 then { afterError s .illegal w with pend := .none }
      else if s.dinFill ≠ 0b1111#4 then { afterError s .trunc w with pend := .none }
      else { s with state := s.din, dinFill := 0b0000#4, pend := .none })) ∧
  encode .ldst = 0x00000020#32

/-- R201: the command, from the decoded form and from its word. -/
def Obligations.SubbCommand : Prop :=
  (∀ s : State, exec .subb s = .next { s with state := subBytes s.sbox s.state, pend := .none }) ∧
  (∀ (w : Word32) (s : State), s.pend = .cmd w → opField w = 0x21#8 →
    engineTurn s = .next (if w.extractLsb' 8 24 = 0#24 then { s with state := subBytes s.sbox s.state, pend := .none }
      else { afterError s .illegal w with pend := .none })) ∧
  encode .subb = 0x00000021#32 ∧ subBytes sboxTable (Vector.replicate 16 0x00#8) = Vector.replicate 16 0x63#8 ∧
  subBytes sboxTable #v[0x00#8, 0x10#8, 0x20#8, 0x30#8, 0x40#8, 0x50#8, 0x60#8, 0x70#8, 0x80#8, 0x90#8, 0xA0#8, 0xB0#8, 0xC0#8, 0xD0#8, 0xE0#8, 0xF0#8] =
    #v[0x63#8, 0xCA#8, 0xB7#8, 0x04#8, 0x09#8, 0x53#8, 0xD0#8, 0x51#8, 0xCD#8, 0x60#8, 0xE0#8, 0xE7#8, 0xBA#8, 0x70#8, 0xE1#8, 0x8C#8]

/-- R202: the command, from the decoded form and from its word. -/
def Obligations.ShrowCommand : Prop :=
  (∀ s : State, exec .shrow s = .next { s with state := shiftRows s.state, pend := .none }) ∧
  (∀ (w : Word32) (s : State), s.pend = .cmd w → opField w = 0x22#8 →
    engineTurn s = .next (if w.extractLsb' 8 24 = 0#24 then { s with state := shiftRows s.state, pend := .none }
      else { afterError s .illegal w with pend := .none })) ∧
  encode .shrow = 0x00000022#32 ∧
  (∀ s : State, ∃ t : State, runCommands [.shrow, .shrow, .shrow, .shrow] s = .next t ∧ t.state = s.state) ∧
  shiftRows #v[0x63#8, 0xCA#8, 0xB7#8, 0x04#8, 0x09#8, 0x53#8, 0xD0#8, 0x51#8, 0xCD#8, 0x60#8, 0xE0#8, 0xE7#8, 0xBA#8, 0x70#8, 0xE1#8, 0x8C#8] =
    #v[0x63#8, 0x53#8, 0xE0#8, 0x8C#8, 0x09#8, 0x60#8, 0xE1#8, 0x04#8, 0xCD#8, 0x70#8, 0xB7#8, 0x51#8, 0xBA#8, 0xCA#8, 0xD0#8, 0xE7#8]

/-- R203: the command, from the decoded form and from its word. -/
def Obligations.MixcolCommand : Prop :=
  (∀ s : State, exec .mixcol s = .next { s with state := mixColumns s.state, pend := .none }) ∧
  (∀ (w : Word32) (s : State), s.pend = .cmd w → opField w = 0x23#8 →
    engineTurn s = .next (if w.extractLsb' 8 24 = 0#24 then { s with state := mixColumns s.state, pend := .none }
      else { afterError s .illegal w with pend := .none })) ∧
  encode .mixcol = 0x00000023#32 ∧ mixColumns (Vector.replicate 16 0x00#8) = Vector.replicate 16 0x00#8 ∧
  (∀ s : State, ∃ t : State, runCommands [.mixcol, .mixcol, .mixcol, .mixcol] s = .next t ∧ t.state = s.state) ∧
  (∃ s t : State, runCommands [.mixcol, .mixcol] s = .next t ∧ t.state ≠ s.state) ∧
  mixColumns #v[0x63#8, 0x53#8, 0xE0#8, 0x8C#8, 0x09#8, 0x60#8, 0xE1#8, 0x04#8, 0xCD#8, 0x70#8, 0xB7#8, 0x51#8, 0xBA#8, 0xCA#8, 0xD0#8, 0xE7#8] =
    #v[0x5F#8, 0x72#8, 0x64#8, 0x15#8, 0x57#8, 0xF5#8, 0xBC#8, 0x92#8, 0xF7#8, 0xBE#8, 0x3B#8, 0x29#8, 0x1D#8, 0xB9#8, 0xF9#8, 0x1A#8]

/-- R204: ADDRK, from the decoded form and from its word, its errors in their order. -/
def Obligations.AddrkCommand : Prop :=
  (∀ (n : Fin 11) (s : State), s.keyValid = true →
    exec (.addrk n.val) s = .next { s with state := addRoundKey s.rk s.state n, pend := .none }) ∧
  (∀ (w : Word32) (s : State), s.pend = .cmd w → opField w = 0x24#8 →
    (w.extractLsb' 12 20 ≠ 0#20 → engineTurn s = .next { afterError s .illegal w with pend := .none }) ∧
    (w.extractLsb' 12 20 = 0#20 → 10 < (w.extractLsb' 8 4).toNat →
      engineTurn s = .next { afterError s .range w with pend := .none }) ∧
    (w.extractLsb' 12 20 = 0#20 → (w.extractLsb' 8 4).toNat ≤ 10 → s.keyValid = false →
      engineTurn s = .next { afterError s .noKey w with pend := .none }) ∧
    (∀ n : Fin 11, w.extractLsb' 12 20 = 0#20 → (w.extractLsb' 8 4).toNat = n.val → s.keyValid = true →
      engineTurn s = .next { s with state := addRoundKey s.rk s.state n, pend := .none })) ∧
  (∀ (n : Fin 11) (s : State), s.keyValid = true →
    ∃ t : State, runCommands [.addrk n.val, .addrk n.val] s = .next t ∧ t.state = s.state) ∧
  encode (.addrk 1) = 0x00000124#32 ∧
  addRoundKey (expand sboxTable #v[0x00#8, 0x01#8, 0x02#8, 0x03#8, 0x04#8, 0x05#8, 0x06#8, 0x07#8, 0x08#8, 0x09#8, 0x0A#8, 0x0B#8, 0x0C#8, 0x0D#8, 0x0E#8, 0x0F#8])
      #v[0x5F#8, 0x72#8, 0x64#8, 0x15#8, 0x57#8, 0xF5#8, 0xBC#8, 0x92#8, 0xF7#8, 0xBE#8, 0x3B#8, 0x29#8, 0x1D#8, 0xB9#8, 0xF9#8, 0x1A#8] 1 =
    #v[0x89#8, 0xD8#8, 0x10#8, 0xE8#8, 0x85#8, 0x5A#8, 0xCE#8, 0x68#8, 0x2D#8, 0x18#8, 0x43#8, 0xD8#8, 0xCB#8, 0x12#8, 0x8F#8, 0xE4#8]

/-- R205: the command, from the decoded form and from its word. -/
def Obligations.StstCommand : Prop :=
  (∀ s : State, exec .stst s = .next { s with dout := s.state, pend := .none }) ∧
  (∀ (w : Word32) (s : State), s.pend = .cmd w → opField w = 0x25#8 →
    engineTurn s = .next (if w.extractLsb' 8 24 = 0#24 then { s with dout := s.state, pend := .none }
      else { afterError s .illegal w with pend := .none })) ∧
  encode .stst = 0x00000025#32 ∧
  (∀ s : State, s.state = #v[0x89#8, 0xD8#8, 0x10#8, 0xE8#8, 0x85#8, 0x5A#8, 0xCE#8, 0x68#8, 0x2D#8, 0x18#8, 0x43#8, 0xD8#8, 0xCB#8, 0x12#8, 0x8F#8, 0xE4#8] →
    ∃ t : State, exec .stst s = .next t ∧ t.readReg (.dout 0) = 0xE810D889#32)

/-- R220: the cipher's rounds, in their order. -/
def Obligations.CipherRounds : Prop :=
  ∀ (t : SboxTable) (x : Block) (rk : Schedule), ∃ b : Nat → Block,
    b 0 = addRoundKey rk x 0 ∧
    (∀ r : Fin 11, 1 ≤ r.val → r.val ≤ 9 →
      b r.val = addRoundKey rk (mixColumns (shiftRows (subBytes t (b (r.val - 1))))) r) ∧
    cipher t x rk = addRoundKey rk (shiftRows (subBytes t (b 9))) 10

/-- R224: ENC, from the decoded form and from its word, its errors in their order. -/
def Obligations.EncCommand : Prop :=
  (∀ s : State, s.keyValid = true → s.dinFill = 0b1111#4 →
    exec .enc s = .next { s with state := cipher s.sbox s.din s.rk, dout := cipher s.sbox s.din s.rk,
                                  dinFill := 0b0000#4, pend := .none }) ∧
  (∀ (w : Word32) (s : State), s.pend = .cmd w → opField w = 0x02#8 →
    engineTurn s = .next (
      if w.extractLsb' 8 24 ≠ 0#24 then { afterError s .illegal w with pend := .none }
      else if s.keyValid = false then { afterError s .noKey w with pend := .none }
      else if s.dinFill ≠ 0b1111#4 then { afterError s .trunc w with pend := .none }
      else { s with state := cipher s.sbox s.din s.rk, dout := cipher s.sbox s.din s.rk, dinFill := 0b0000#4,
                     pend := .none })) ∧
  encode .enc = 0x00000002#32 ∧
  cipher sboxTable #v[0x00#8, 0x11#8, 0x22#8, 0x33#8, 0x44#8, 0x55#8, 0x66#8, 0x77#8, 0x88#8, 0x99#8, 0xAA#8, 0xBB#8, 0xCC#8, 0xDD#8, 0xEE#8, 0xFF#8]
      (expand sboxTable #v[0x00#8, 0x01#8, 0x02#8, 0x03#8, 0x04#8, 0x05#8, 0x06#8, 0x07#8, 0x08#8, 0x09#8, 0x0A#8, 0x0B#8, 0x0C#8, 0x0D#8, 0x0E#8, 0x0F#8]) =
    #v[0x69#8, 0xC4#8, 0xE0#8, 0xD8#8, 0x6A#8, 0x7B#8, 0x04#8, 0x30#8, 0xD8#8, 0xCD#8, 0xB7#8, 0x80#8, 0x70#8, 0xB4#8, 0xC5#8, 0x5A#8]

/-- R225: NOP, from the decoded form and from its word. -/
def Obligations.NopCommand : Prop :=
  (∀ s : State, exec .nop s = .next { s with pend := .none }) ∧
  (∀ (w : Word32) (s : State), s.pend = .cmd w → opField w = 0x00#8 →
    engineTurn s = .next (if w.extractLsb' 8 24 = 0#24 then { s with pend := .none }
      else { afterError s .illegal w with pend := .none })) ∧
  encode .nop = 0x00000000#32

/-- R226: ENC leaves the state that the step commands leave, run one after another. -/
def Obligations.EncEqualsStepCommands : Prop :=
  ∀ s : State, s.keyValid = true → s.dinFill = 0b1111#4 → s.err = 0#4 →
    ∃ t u : State, runCommands encAsSteps s = .next t ∧ exec .enc s = .next u ∧
      t.state = u.state ∧ t.dout = u.dout ∧ t.dinFill = u.dinFill ∧ t = u

/-- R242, R250: `raise` records an error only when none is recorded, and while no ERR write or reset comes, no step changes
a recorded one. -/
def Obligations.FirstErrorIsKept : Prop :=
  (∀ (s : State) (e : ErrCause) (info : Word32),
    (s.err = 0#4 → s.raise e info = { s with err := e.code, errInfo := info }) ∧
    (s.err ≠ 0#4 → s.raise e info = s)) ∧
  (∀ s t : State, s.err ≠ 0#4 → step s = .next t → (∀ e : Event, s.inbox.head? = some e → e.clearsError = false) →
    t.err = s.err ∧ t.errInfo = s.errInfo)

/-- R247, R244: the first failing check of a pending command raises its error and ends the command with no other effect; a
command whose checks pass is performed and records nothing. -/
def Obligations.CommandChecksInOrder : Prop :=
  ∀ (s : State) (w : Word32), s.pend = .cmd w →
    (∀ e : ErrCause, firstFailedCheck w s = some e →
      engineTurn s = .next { afterError s e w with pend := .none }) ∧
    (firstFailedCheck w s = none → ∃ (i : Instr) (t : State), decode w = .ok i ∧ engineTurn s = exec i s ∧
      exec i s = .next t ∧ t.err = s.err ∧ t.errInfo = s.errInfo ∧ t.pend = .none)

/-- R245, R246: while an error is recorded CMD writes are discarded, DIN writes and an accepted command still work, later
errors are lost; an ERR write clears it. -/
def Obligations.ErrorsBlockCommandsUntilCleared : Prop :=
  (∀ (s : State) (v : Word32), s.err ≠ 0#4 → s.write 4 0x000#10 v = s) ∧
  (∀ (s : State) (k : Fin 4) (off : Offset) (v : Word32), s.err ≠ 0#4 → s.pend = .none →
    off.toNat = 0x020 + 4 * k.val → ∃ (d : Block) (f : BitVec 4), s.write 4 off v = { s with din := d, dinFill := f } ∧
      f.getLsbD k.val = true ∧ quadAt d (4 * k.val) = quadOfWord v) ∧
  (∀ (s : State) (size : Nat) (off : Offset) (v : Word32), s.err ≠ 0#4 → size ≠ 4 ∨ off.toNat % 4 ≠ 0 →
    s.write size off v = s ∧ s.readEffect size off = s) ∧
  (∀ (s : State) (off : Offset) (e : BitVec 4) (x : Word32), off.toNat % 4 = 0 → off ≠ 0x004#10 → off ≠ 0x008#10 →
    off ≠ 0x00C#10 → State.readValue { s with err := e, errInfo := x } 4 off = s.readValue 4 off) ∧
  (∀ (i : Instr) (s t : State) (e : BitVec 4) (x : Word32), exec i s = .next t → e ≠ 0#4 →
    exec i { s with err := e, errInfo := x } = .next { t with err := e, errInfo := x }) ∧
  (∀ (s : State) (v : Word32), s.write 4 0x008#10 v = { s with err := 0x0#4, errInfo := 0x00000000#32 })

/-- R256, R79: each engine has its own window, an access at a host address in a window is an event of that window's
engine, at the window offset, and of no other engine; an access outside every window is none. Engines are numbered by
address (log 12); which accesses are outside a window is log 9. -/
def Obligations.EnginesAreIndependent : Prop :=
  (∀ (p : Platform) (a : BusAccess), ∃ q : Platform, p.access a = .next q ∧ q.engines.length = p.engines.length) ∧
  (∀ (p q : Platform) (a : BusAccess) (k : Nat), p.access a = .next q →
    engineAt p.engines.length a.addr ≠ some k → q.engines[k]? = p.engines[k]?) ∧
  (∀ (p q : Platform) (a : BusAccess) (k : Nat) (s t : State), p.access a = .next q →
    engineAt p.engines.length a.addr = some k → p.engines[k]? = some s → applyEvent (a.toEvent k) s = .next t →
    q.engines[k]? = some t) ∧
  (∀ (p : Platform) (k size : Nat) (off : Offset) (v : Word32) (s : State), p.engines[k]? = some s →
    (∃ q : Platform, p.access (.read size (Config.base k + off.toNat)) = .next q ∧
      q.engines[k]? = some ((s.readEffect size off).reply (s.readValue size off))) ∧
    (∃ q : Platform, p.access (.write size (Config.base k + off.toNat) v) = .next q ∧
      q.engines[k]? = some (s.write size off v))) ∧
  (∀ (n k addr : Nat), engineAt n addr = some k ↔ k < n ∧ Config.base k ≤ addr ∧ addr < Config.base k + 0x400) ∧
  (∀ (j k addr : Nat), inWindow j addr = true → inWindow k addr = true → j = k) ∧
  (∀ (k : Nat) (off : Offset), Config.base k % 0x400 = 0 ∧ inWindow k (Config.base k + off.toNat) = true ∧
    windowOffset k (Config.base k + off.toNat) = off)

/-- R111: the pseudo-instruction `wait` leaves its loop exactly when it read BUSY = 0, and changes nothing of the engine.
That the loop's `beq` takes a HOST step of its own, so that one turn of the loop is two steps, that a label is an index,
and that `wait` names its variable are the model's choice (log 17). -/
def Obligations.WaitLoopFollowsBusy : Prop :=
  ∀ (y : System) (pos t : Nat), y.host.next = pos → y.host.program[pos]? = some (.rd 0x004 t) →
    y.host.program[pos + 1]? = some (.beq t 0x1#32 0x1#32 pos) →
    y.hostTurn.hostTurn.engine = y.engine ∧
    y.hostTurn.hostTurn.host.next = if y.engine.pend = .none then pos + 2 else pos
end

