-- ==== Sys2Proof/Laws/State.lean ====
section
/-! SUPPORT. One lemma per field per update of the state, so that no proof unfolds a record update. -/

namespace Sys2Proof.Machine

/-! ## clearError -/

@[simp] theorem State.clearError_sbox (s : State) : s.clearError.sbox = s.sbox := rfl
@[simp] theorem State.clearError_sboxValid (s : State) : s.clearError.sboxValid = s.sboxValid := rfl
@[simp] theorem State.clearError_rk (s : State) : s.clearError.rk = s.rk := rfl
@[simp] theorem State.clearError_keyValid (s : State) : s.clearError.keyValid = s.keyValid := rfl
@[simp] theorem State.clearError_state (s : State) : s.clearError.state = s.state := rfl
@[simp] theorem State.clearError_din (s : State) : s.clearError.din = s.din := rfl
@[simp] theorem State.clearError_dinFill (s : State) : s.clearError.dinFill = s.dinFill := rfl
@[simp] theorem State.clearError_dout (s : State) : s.clearError.dout = s.dout := rfl
@[simp] theorem State.clearError_res (s : State) : s.clearError.res = s.res := rfl
@[simp] theorem State.clearError_err (s : State) : s.clearError.err = 0x0#4 := rfl
@[simp] theorem State.clearError_errInfo (s : State) : s.clearError.errInfo = 0x00000000#32 := rfl
@[simp] theorem State.clearError_pend (s : State) : s.clearError.pend = s.pend := rfl
@[simp] theorem State.clearError_inbox (s : State) : s.clearError.inbox = s.inbox := rfl
@[simp] theorem State.clearError_replies (s : State) : s.clearError.replies = s.replies := rfl

/-! ## retire -/

@[simp] theorem State.retire_sbox (s : State) : s.retire.sbox = s.sbox := rfl
@[simp] theorem State.retire_sboxValid (s : State) : s.retire.sboxValid = s.sboxValid := rfl
@[simp] theorem State.retire_rk (s : State) : s.retire.rk = s.rk := rfl
@[simp] theorem State.retire_keyValid (s : State) : s.retire.keyValid = s.keyValid := rfl
@[simp] theorem State.retire_state (s : State) : s.retire.state = s.state := rfl
@[simp] theorem State.retire_din (s : State) : s.retire.din = s.din := rfl
@[simp] theorem State.retire_dinFill (s : State) : s.retire.dinFill = s.dinFill := rfl
@[simp] theorem State.retire_dout (s : State) : s.retire.dout = s.dout := rfl
@[simp] theorem State.retire_res (s : State) : s.retire.res = s.res := rfl
@[simp] theorem State.retire_err (s : State) : s.retire.err = s.err := rfl
@[simp] theorem State.retire_errInfo (s : State) : s.retire.errInfo = s.errInfo := rfl
@[simp] theorem State.retire_pend (s : State) : s.retire.pend = .none := rfl
@[simp] theorem State.retire_inbox (s : State) : s.retire.inbox = s.inbox := rfl
@[simp] theorem State.retire_replies (s : State) : s.retire.replies = s.replies := rfl

/-! ## setRes -/

@[simp] theorem State.setRes_sbox (s : State) (v : Byte) : (s.setRes v).sbox = s.sbox := rfl
@[simp] theorem State.setRes_sboxValid (s : State) (v : Byte) : (s.setRes v).sboxValid = s.sboxValid := rfl
@[simp] theorem State.setRes_rk (s : State) (v : Byte) : (s.setRes v).rk = s.rk := rfl
@[simp] theorem State.setRes_keyValid (s : State) (v : Byte) : (s.setRes v).keyValid = s.keyValid := rfl
@[simp] theorem State.setRes_state (s : State) (v : Byte) : (s.setRes v).state = s.state := rfl
@[simp] theorem State.setRes_din (s : State) (v : Byte) : (s.setRes v).din = s.din := rfl
@[simp] theorem State.setRes_dinFill (s : State) (v : Byte) : (s.setRes v).dinFill = s.dinFill := rfl
@[simp] theorem State.setRes_dout (s : State) (v : Byte) : (s.setRes v).dout = s.dout := rfl
@[simp] theorem State.setRes_res (s : State) (v : Byte) : (s.setRes v).res = v := rfl
@[simp] theorem State.setRes_err (s : State) (v : Byte) : (s.setRes v).err = s.err := rfl
@[simp] theorem State.setRes_errInfo (s : State) (v : Byte) : (s.setRes v).errInfo = s.errInfo := rfl
@[simp] theorem State.setRes_pend (s : State) (v : Byte) : (s.setRes v).pend = s.pend := rfl
@[simp] theorem State.setRes_inbox (s : State) (v : Byte) : (s.setRes v).inbox = s.inbox := rfl
@[simp] theorem State.setRes_replies (s : State) (v : Byte) : (s.setRes v).replies = s.replies := rfl

/-! ## setState -/

@[simp] theorem State.setState_sbox (s : State) (b : Block) : (s.setState b).sbox = s.sbox := rfl
@[simp] theorem State.setState_sboxValid (s : State) (b : Block) : (s.setState b).sboxValid = s.sboxValid := rfl
@[simp] theorem State.setState_rk (s : State) (b : Block) : (s.setState b).rk = s.rk := rfl
@[simp] theorem State.setState_keyValid (s : State) (b : Block) : (s.setState b).keyValid = s.keyValid := rfl
@[simp] theorem State.setState_state (s : State) (b : Block) : (s.setState b).state = b := rfl
@[simp] theorem State.setState_din (s : State) (b : Block) : (s.setState b).din = s.din := rfl
@[simp] theorem State.setState_dinFill (s : State) (b : Block) : (s.setState b).dinFill = s.dinFill := rfl
@[simp] theorem State.setState_dout (s : State) (b : Block) : (s.setState b).dout = s.dout := rfl
@[simp] theorem State.setState_res (s : State) (b : Block) : (s.setState b).res = s.res := rfl
@[simp] theorem State.setState_err (s : State) (b : Block) : (s.setState b).err = s.err := rfl
@[simp] theorem State.setState_errInfo (s : State) (b : Block) : (s.setState b).errInfo = s.errInfo := rfl
@[simp] theorem State.setState_pend (s : State) (b : Block) : (s.setState b).pend = s.pend := rfl
@[simp] theorem State.setState_inbox (s : State) (b : Block) : (s.setState b).inbox = s.inbox := rfl
@[simp] theorem State.setState_replies (s : State) (b : Block) : (s.setState b).replies = s.replies := rfl

/-! ## setDout -/

@[simp] theorem State.setDout_sbox (s : State) (b : Block) : (s.setDout b).sbox = s.sbox := rfl
@[simp] theorem State.setDout_sboxValid (s : State) (b : Block) : (s.setDout b).sboxValid = s.sboxValid := rfl
@[simp] theorem State.setDout_rk (s : State) (b : Block) : (s.setDout b).rk = s.rk := rfl
@[simp] theorem State.setDout_keyValid (s : State) (b : Block) : (s.setDout b).keyValid = s.keyValid := rfl
@[simp] theorem State.setDout_state (s : State) (b : Block) : (s.setDout b).state = s.state := rfl
@[simp] theorem State.setDout_din (s : State) (b : Block) : (s.setDout b).din = s.din := rfl
@[simp] theorem State.setDout_dinFill (s : State) (b : Block) : (s.setDout b).dinFill = s.dinFill := rfl
@[simp] theorem State.setDout_dout (s : State) (b : Block) : (s.setDout b).dout = b := rfl
@[simp] theorem State.setDout_res (s : State) (b : Block) : (s.setDout b).res = s.res := rfl
@[simp] theorem State.setDout_err (s : State) (b : Block) : (s.setDout b).err = s.err := rfl
@[simp] theorem State.setDout_errInfo (s : State) (b : Block) : (s.setDout b).errInfo = s.errInfo := rfl
@[simp] theorem State.setDout_pend (s : State) (b : Block) : (s.setDout b).pend = s.pend := rfl
@[simp] theorem State.setDout_inbox (s : State) (b : Block) : (s.setDout b).inbox = s.inbox := rfl
@[simp] theorem State.setDout_replies (s : State) (b : Block) : (s.setDout b).replies = s.replies := rfl

/-! ## consumeDin -/

@[simp] theorem State.consumeDin_sbox (s : State) : s.consumeDin.sbox = s.sbox := rfl
@[simp] theorem State.consumeDin_sboxValid (s : State) : s.consumeDin.sboxValid = s.sboxValid := rfl
@[simp] theorem State.consumeDin_rk (s : State) : s.consumeDin.rk = s.rk := rfl
@[simp] theorem State.consumeDin_keyValid (s : State) : s.consumeDin.keyValid = s.keyValid := rfl
@[simp] theorem State.consumeDin_state (s : State) : s.consumeDin.state = s.state := rfl
@[simp] theorem State.consumeDin_din (s : State) : s.consumeDin.din = s.din := rfl
@[simp] theorem State.consumeDin_dinFill (s : State) : s.consumeDin.dinFill = 0b0000#4 := rfl
@[simp] theorem State.consumeDin_dout (s : State) : s.consumeDin.dout = s.dout := rfl
@[simp] theorem State.consumeDin_res (s : State) : s.consumeDin.res = s.res := rfl
@[simp] theorem State.consumeDin_err (s : State) : s.consumeDin.err = s.err := rfl
@[simp] theorem State.consumeDin_errInfo (s : State) : s.consumeDin.errInfo = s.errInfo := rfl
@[simp] theorem State.consumeDin_pend (s : State) : s.consumeDin.pend = s.pend := rfl
@[simp] theorem State.consumeDin_inbox (s : State) : s.consumeDin.inbox = s.inbox := rfl
@[simp] theorem State.consumeDin_replies (s : State) : s.consumeDin.replies = s.replies := rfl

/-! ## installKey -/

@[simp] theorem State.installKey_sbox (s : State) (r : Schedule) : (s.installKey r).sbox = s.sbox := rfl
@[simp] theorem State.installKey_sboxValid (s : State) (r : Schedule) : (s.installKey r).sboxValid = s.sboxValid := rfl
@[simp] theorem State.installKey_rk (s : State) (r : Schedule) : (s.installKey r).rk = r := rfl
@[simp] theorem State.installKey_keyValid (s : State) (r : Schedule) : (s.installKey r).keyValid = true := rfl
@[simp] theorem State.installKey_state (s : State) (r : Schedule) : (s.installKey r).state = s.state := rfl
@[simp] theorem State.installKey_din (s : State) (r : Schedule) : (s.installKey r).din = s.din := rfl
@[simp] theorem State.installKey_dinFill (s : State) (r : Schedule) : (s.installKey r).dinFill = s.dinFill := rfl
@[simp] theorem State.installKey_dout (s : State) (r : Schedule) : (s.installKey r).dout = s.dout := rfl
@[simp] theorem State.installKey_res (s : State) (r : Schedule) : (s.installKey r).res = s.res := rfl
@[simp] theorem State.installKey_err (s : State) (r : Schedule) : (s.installKey r).err = s.err := rfl
@[simp] theorem State.installKey_errInfo (s : State) (r : Schedule) : (s.installKey r).errInfo = s.errInfo := rfl
@[simp] theorem State.installKey_pend (s : State) (r : Schedule) : (s.installKey r).pend = s.pend := rfl
@[simp] theorem State.installKey_inbox (s : State) (r : Schedule) : (s.installKey r).inbox = s.inbox := rfl
@[simp] theorem State.installKey_replies (s : State) (r : Schedule) : (s.installKey r).replies = s.replies := rfl

/-! ## clearKey -/

@[simp] theorem State.clearKey_sbox (s : State) : s.clearKey.sbox = s.sbox := rfl
@[simp] theorem State.clearKey_sboxValid (s : State) : s.clearKey.sboxValid = s.sboxValid := rfl
@[simp] theorem State.clearKey_rk (s : State) : s.clearKey.rk = Vector.replicate 176 0x00#8 := rfl
@[simp] theorem State.clearKey_keyValid (s : State) : s.clearKey.keyValid = false := rfl
@[simp] theorem State.clearKey_state (s : State) : s.clearKey.state = Vector.replicate 16 0x00#8 := rfl
@[simp] theorem State.clearKey_din (s : State) : s.clearKey.din = Vector.replicate 16 0x00#8 := rfl
@[simp] theorem State.clearKey_dinFill (s : State) : s.clearKey.dinFill = 0b0000#4 := rfl
@[simp] theorem State.clearKey_dout (s : State) : s.clearKey.dout = Vector.replicate 16 0x00#8 := rfl
@[simp] theorem State.clearKey_res (s : State) : s.clearKey.res = s.res := rfl
@[simp] theorem State.clearKey_err (s : State) : s.clearKey.err = s.err := rfl
@[simp] theorem State.clearKey_errInfo (s : State) : s.clearKey.errInfo = s.errInfo := rfl
@[simp] theorem State.clearKey_pend (s : State) : s.clearKey.pend = s.pend := rfl
@[simp] theorem State.clearKey_inbox (s : State) : s.clearKey.inbox = s.inbox := rfl
@[simp] theorem State.clearKey_replies (s : State) : s.clearKey.replies = s.replies := rfl

/-! ## writeDin -/

@[simp] theorem State.writeDin_sbox (s : State) (k : Fin 4) (v : Word32) : (s.writeDin k v).sbox = s.sbox := rfl
@[simp] theorem State.writeDin_sboxValid (s : State) (k : Fin 4) (v : Word32) : (s.writeDin k v).sboxValid = s.sboxValid := rfl
@[simp] theorem State.writeDin_rk (s : State) (k : Fin 4) (v : Word32) : (s.writeDin k v).rk = s.rk := rfl
@[simp] theorem State.writeDin_keyValid (s : State) (k : Fin 4) (v : Word32) : (s.writeDin k v).keyValid = s.keyValid := rfl
@[simp] theorem State.writeDin_state (s : State) (k : Fin 4) (v : Word32) : (s.writeDin k v).state = s.state := rfl
@[simp] theorem State.writeDin_din (s : State) (k : Fin 4) (v : Word32) : (s.writeDin k v).din = putQuad s.din (4 * k.val) (quadOfWord v) := rfl
@[simp] theorem State.writeDin_dinFill (s : State) (k : Fin 4) (v : Word32) : (s.writeDin k v).dinFill = setFillBit s.dinFill k := rfl
@[simp] theorem State.writeDin_dout (s : State) (k : Fin 4) (v : Word32) : (s.writeDin k v).dout = s.dout := rfl
@[simp] theorem State.writeDin_res (s : State) (k : Fin 4) (v : Word32) : (s.writeDin k v).res = s.res := rfl
@[simp] theorem State.writeDin_err (s : State) (k : Fin 4) (v : Word32) : (s.writeDin k v).err = s.err := rfl
@[simp] theorem State.writeDin_errInfo (s : State) (k : Fin 4) (v : Word32) : (s.writeDin k v).errInfo = s.errInfo := rfl
@[simp] theorem State.writeDin_pend (s : State) (k : Fin 4) (v : Word32) : (s.writeDin k v).pend = s.pend := rfl
@[simp] theorem State.writeDin_inbox (s : State) (k : Fin 4) (v : Word32) : (s.writeDin k v).inbox = s.inbox := rfl
@[simp] theorem State.writeDin_replies (s : State) (k : Fin 4) (v : Word32) : (s.writeDin k v).replies = s.replies := rfl

/-! ## accept -/

@[simp] theorem State.accept_sbox (s : State) (w : Word32) : (s.accept w).sbox = s.sbox := rfl
@[simp] theorem State.accept_sboxValid (s : State) (w : Word32) : (s.accept w).sboxValid = s.sboxValid := rfl
@[simp] theorem State.accept_rk (s : State) (w : Word32) : (s.accept w).rk = s.rk := rfl
@[simp] theorem State.accept_keyValid (s : State) (w : Word32) : (s.accept w).keyValid = s.keyValid := rfl
@[simp] theorem State.accept_state (s : State) (w : Word32) : (s.accept w).state = s.state := rfl
@[simp] theorem State.accept_din (s : State) (w : Word32) : (s.accept w).din = s.din := rfl
@[simp] theorem State.accept_dinFill (s : State) (w : Word32) : (s.accept w).dinFill = s.dinFill := rfl
@[simp] theorem State.accept_dout (s : State) (w : Word32) : (s.accept w).dout = s.dout := rfl
@[simp] theorem State.accept_res (s : State) (w : Word32) : (s.accept w).res = s.res := rfl
@[simp] theorem State.accept_err (s : State) (w : Word32) : (s.accept w).err = s.err := rfl
@[simp] theorem State.accept_errInfo (s : State) (w : Word32) : (s.accept w).errInfo = s.errInfo := rfl
@[simp] theorem State.accept_pend (s : State) (w : Word32) : (s.accept w).pend = .cmd w := rfl
@[simp] theorem State.accept_inbox (s : State) (w : Word32) : (s.accept w).inbox = s.inbox := rfl
@[simp] theorem State.accept_replies (s : State) (w : Word32) : (s.accept w).replies = s.replies := rfl

/-! ## setInbox -/

@[simp] theorem State.setInbox_sbox (s : State) (es : List Event) : (s.setInbox es).sbox = s.sbox := rfl
@[simp] theorem State.setInbox_sboxValid (s : State) (es : List Event) : (s.setInbox es).sboxValid = s.sboxValid := rfl
@[simp] theorem State.setInbox_rk (s : State) (es : List Event) : (s.setInbox es).rk = s.rk := rfl
@[simp] theorem State.setInbox_keyValid (s : State) (es : List Event) : (s.setInbox es).keyValid = s.keyValid := rfl
@[simp] theorem State.setInbox_state (s : State) (es : List Event) : (s.setInbox es).state = s.state := rfl
@[simp] theorem State.setInbox_din (s : State) (es : List Event) : (s.setInbox es).din = s.din := rfl
@[simp] theorem State.setInbox_dinFill (s : State) (es : List Event) : (s.setInbox es).dinFill = s.dinFill := rfl
@[simp] theorem State.setInbox_dout (s : State) (es : List Event) : (s.setInbox es).dout = s.dout := rfl
@[simp] theorem State.setInbox_res (s : State) (es : List Event) : (s.setInbox es).res = s.res := rfl
@[simp] theorem State.setInbox_err (s : State) (es : List Event) : (s.setInbox es).err = s.err := rfl
@[simp] theorem State.setInbox_errInfo (s : State) (es : List Event) : (s.setInbox es).errInfo = s.errInfo := rfl
@[simp] theorem State.setInbox_pend (s : State) (es : List Event) : (s.setInbox es).pend = s.pend := rfl
@[simp] theorem State.setInbox_inbox (s : State) (es : List Event) : (s.setInbox es).inbox = es := rfl
@[simp] theorem State.setInbox_replies (s : State) (es : List Event) : (s.setInbox es).replies = s.replies := rfl

/-! ## reply -/

@[simp] theorem State.reply_sbox (s : State) (w : Word32) : (s.reply w).sbox = s.sbox := rfl
@[simp] theorem State.reply_sboxValid (s : State) (w : Word32) : (s.reply w).sboxValid = s.sboxValid := rfl
@[simp] theorem State.reply_rk (s : State) (w : Word32) : (s.reply w).rk = s.rk := rfl
@[simp] theorem State.reply_keyValid (s : State) (w : Word32) : (s.reply w).keyValid = s.keyValid := rfl
@[simp] theorem State.reply_state (s : State) (w : Word32) : (s.reply w).state = s.state := rfl
@[simp] theorem State.reply_din (s : State) (w : Word32) : (s.reply w).din = s.din := rfl
@[simp] theorem State.reply_dinFill (s : State) (w : Word32) : (s.reply w).dinFill = s.dinFill := rfl
@[simp] theorem State.reply_dout (s : State) (w : Word32) : (s.reply w).dout = s.dout := rfl
@[simp] theorem State.reply_res (s : State) (w : Word32) : (s.reply w).res = s.res := rfl
@[simp] theorem State.reply_err (s : State) (w : Word32) : (s.reply w).err = s.err := rfl
@[simp] theorem State.reply_errInfo (s : State) (w : Word32) : (s.reply w).errInfo = s.errInfo := rfl
@[simp] theorem State.reply_pend (s : State) (w : Word32) : (s.reply w).pend = s.pend := rfl
@[simp] theorem State.reply_inbox (s : State) (w : Word32) : (s.reply w).inbox = s.inbox := rfl
@[simp] theorem State.reply_replies (s : State) (w : Word32) : (s.reply w).replies = w :: s.replies := rfl

/-! ## installSbox, gen -/

@[simp] theorem State.installSbox_sbox (s : State) (t : SboxTable) : (s.installSbox t).sbox = t := rfl
@[simp] theorem State.installSbox_sboxValid (s : State) (t : SboxTable) : (s.installSbox t).sboxValid = true := rfl
@[simp] theorem State.installSbox_rk (s : State) (t : SboxTable) : (s.installSbox t).rk = s.rk := rfl
@[simp] theorem State.installSbox_keyValid (s : State) (t : SboxTable) : (s.installSbox t).keyValid = s.keyValid := rfl
@[simp] theorem State.installSbox_state (s : State) (t : SboxTable) : (s.installSbox t).state = s.state := rfl
@[simp] theorem State.installSbox_din (s : State) (t : SboxTable) : (s.installSbox t).din = s.din := rfl
@[simp] theorem State.installSbox_dinFill (s : State) (t : SboxTable) : (s.installSbox t).dinFill = s.dinFill := rfl
@[simp] theorem State.installSbox_dout (s : State) (t : SboxTable) : (s.installSbox t).dout = s.dout := rfl
@[simp] theorem State.installSbox_res (s : State) (t : SboxTable) : (s.installSbox t).res = s.res := rfl
@[simp] theorem State.installSbox_err (s : State) (t : SboxTable) : (s.installSbox t).err = s.err := rfl
@[simp] theorem State.installSbox_errInfo (s : State) (t : SboxTable) : (s.installSbox t).errInfo = s.errInfo := rfl
@[simp] theorem State.installSbox_pend (s : State) (t : SboxTable) : (s.installSbox t).pend = s.pend := rfl
@[simp] theorem State.installSbox_inbox (s : State) (t : SboxTable) : (s.installSbox t).inbox = s.inbox := rfl
@[simp] theorem State.installSbox_replies (s : State) (t : SboxTable) : (s.installSbox t).replies = s.replies := rfl

@[simp] theorem State.gen_eq (s : State) : s.gen = (s.installSbox (generate s.sbox)).retire := rfl

/-! ## raise, failCommand -/

@[simp] theorem State.raise_sbox (s : State) (e : ErrCause) (w : Word32) : (s.raise e w).sbox = s.sbox :=
  by unfold State.raise; split <;> rfl
@[simp] theorem State.raise_sboxValid (s : State) (e : ErrCause) (w : Word32) : (s.raise e w).sboxValid = s.sboxValid :=
  by unfold State.raise; split <;> rfl
@[simp] theorem State.raise_rk (s : State) (e : ErrCause) (w : Word32) : (s.raise e w).rk = s.rk :=
  by unfold State.raise; split <;> rfl
@[simp] theorem State.raise_keyValid (s : State) (e : ErrCause) (w : Word32) : (s.raise e w).keyValid = s.keyValid :=
  by unfold State.raise; split <;> rfl
@[simp] theorem State.raise_state (s : State) (e : ErrCause) (w : Word32) : (s.raise e w).state = s.state :=
  by unfold State.raise; split <;> rfl
@[simp] theorem State.raise_din (s : State) (e : ErrCause) (w : Word32) : (s.raise e w).din = s.din :=
  by unfold State.raise; split <;> rfl
@[simp] theorem State.raise_dinFill (s : State) (e : ErrCause) (w : Word32) : (s.raise e w).dinFill = s.dinFill :=
  by unfold State.raise; split <;> rfl
@[simp] theorem State.raise_dout (s : State) (e : ErrCause) (w : Word32) : (s.raise e w).dout = s.dout :=
  by unfold State.raise; split <;> rfl
@[simp] theorem State.raise_res (s : State) (e : ErrCause) (w : Word32) : (s.raise e w).res = s.res :=
  by unfold State.raise; split <;> rfl
@[simp] theorem State.raise_err (s : State) (e : ErrCause) (w : Word32) : (s.raise e w).err = if s.err = 0#4 then e.code else s.err :=
  by unfold State.raise; split <;> simp_all
@[simp] theorem State.raise_errInfo (s : State) (e : ErrCause) (w : Word32) : (s.raise e w).errInfo = if s.err = 0#4 then w else s.errInfo :=
  by unfold State.raise; split <;> simp_all
@[simp] theorem State.raise_pend (s : State) (e : ErrCause) (w : Word32) : (s.raise e w).pend = s.pend :=
  by unfold State.raise; split <;> rfl
@[simp] theorem State.raise_inbox (s : State) (e : ErrCause) (w : Word32) : (s.raise e w).inbox = s.inbox :=
  by unfold State.raise; split <;> rfl
@[simp] theorem State.raise_replies (s : State) (e : ErrCause) (w : Word32) : (s.raise e w).replies = s.replies :=
  by unfold State.raise; split <;> rfl

@[simp] theorem State.failCommand_sbox (s : State) (e : ErrCause) (w : Word32) : (s.failCommand e w).sbox = s.sbox :=
  State.raise_sbox s e w
@[simp] theorem State.failCommand_sboxValid (s : State) (e : ErrCause) (w : Word32) : (s.failCommand e w).sboxValid = s.sboxValid :=
  State.raise_sboxValid s e w
@[simp] theorem State.failCommand_rk (s : State) (e : ErrCause) (w : Word32) : (s.failCommand e w).rk = s.rk :=
  State.raise_rk s e w
@[simp] theorem State.failCommand_keyValid (s : State) (e : ErrCause) (w : Word32) : (s.failCommand e w).keyValid = s.keyValid :=
  State.raise_keyValid s e w
@[simp] theorem State.failCommand_state (s : State) (e : ErrCause) (w : Word32) : (s.failCommand e w).state = s.state :=
  State.raise_state s e w
@[simp] theorem State.failCommand_din (s : State) (e : ErrCause) (w : Word32) : (s.failCommand e w).din = s.din :=
  State.raise_din s e w
@[simp] theorem State.failCommand_dinFill (s : State) (e : ErrCause) (w : Word32) : (s.failCommand e w).dinFill = s.dinFill :=
  State.raise_dinFill s e w
@[simp] theorem State.failCommand_dout (s : State) (e : ErrCause) (w : Word32) : (s.failCommand e w).dout = s.dout :=
  State.raise_dout s e w
@[simp] theorem State.failCommand_res (s : State) (e : ErrCause) (w : Word32) : (s.failCommand e w).res = s.res :=
  State.raise_res s e w
@[simp] theorem State.failCommand_err (s : State) (e : ErrCause) (w : Word32) : (s.failCommand e w).err = if s.err = 0#4 then e.code else s.err :=
  State.raise_err s e w
@[simp] theorem State.failCommand_errInfo (s : State) (e : ErrCause) (w : Word32) : (s.failCommand e w).errInfo = if s.err = 0#4 then w else s.errInfo :=
  State.raise_errInfo s e w
@[simp] theorem State.failCommand_pend (s : State) (e : ErrCause) (w : Word32) : (s.failCommand e w).pend = .none := rfl
@[simp] theorem State.failCommand_inbox (s : State) (e : ErrCause) (w : Word32) : (s.failCommand e w).inbox = s.inbox :=
  State.raise_inbox s e w
@[simp] theorem State.failCommand_replies (s : State) (e : ErrCause) (w : Word32) : (s.failCommand e w).replies = s.replies :=
  State.raise_replies s e w

/-! ## assertReset -/

@[simp] theorem State.assertReset_sbox (s : State) : s.assertReset.sbox = Vector.replicate 256 0x00#8 := rfl
@[simp] theorem State.assertReset_sboxValid (s : State) : s.assertReset.sboxValid = false := rfl
@[simp] theorem State.assertReset_rk (s : State) : s.assertReset.rk = Vector.replicate 176 0x00#8 := rfl
@[simp] theorem State.assertReset_keyValid (s : State) : s.assertReset.keyValid = false := rfl
@[simp] theorem State.assertReset_state (s : State) : s.assertReset.state = Vector.replicate 16 0x00#8 := rfl
@[simp] theorem State.assertReset_din (s : State) : s.assertReset.din = Vector.replicate 16 0x00#8 := rfl
@[simp] theorem State.assertReset_dinFill (s : State) : s.assertReset.dinFill = 0b0000#4 := rfl
@[simp] theorem State.assertReset_dout (s : State) : s.assertReset.dout = Vector.replicate 16 0x00#8 := rfl
@[simp] theorem State.assertReset_res (s : State) : s.assertReset.res = 0x00#8 := rfl
@[simp] theorem State.assertReset_err (s : State) : s.assertReset.err = 0x0#4 := rfl
@[simp] theorem State.assertReset_errInfo (s : State) : s.assertReset.errInfo = 0x00000000#32 := rfl
@[simp] theorem State.assertReset_pend (s : State) : s.assertReset.pend = .gen := rfl
@[simp] theorem State.assertReset_inbox (s : State) : s.assertReset.inbox = s.inbox := rfl
@[simp] theorem State.assertReset_replies (s : State) : s.assertReset.replies = s.replies := rfl

end Sys2Proof.Machine
end

