-- ==== Sys2Proof/Laws/Ops.lean ====
section
/-! SUPPORT. What the shared operations on the state do, each said once: recording an error, flags, byte lanes. -/

namespace Sys2Proof.Machine

/-! ## Errors -/

theorem State.raise_of_clear (s : State) (e : ErrCause) (info : Word32) (h : s.err = 0#4) :
    s.raise e info = { s with err := e.code, errInfo := info } := by simp [State.raise, h]

theorem State.raise_of_recorded (s : State) (e : ErrCause) (info : Word32) (h : s.err ≠ 0#4) :
    s.raise e info = s := by simp [State.raise, h]

/-- Everything `raise` can do: at most `ERR` and `ERRINFO` change. -/
theorem State.raise_eq_afterError (s : State) (e : ErrCause) (info : Word32) :
    s.raise e info = afterError s e info := by
  unfold State.raise afterError
  split <;> rfl

/-- Everything a failing command can do. -/
theorem State.failCommand_eq (s : State) (e : ErrCause) (w : Word32) :
    s.failCommand e w = { afterError s e w with pend := .none } := by
  unfold State.failCommand
  rw [State.raise_eq_afterError]
  rfl

theorem ErrCause.code_ne_zero (e : ErrCause) : e.code ≠ 0#4 := by cases e <;> decide

theorem ErrCause.code_le (e : ErrCause) : e.code.toNat ≤ 8 := by cases e <;> decide

/-! ## Flags -/

@[simp] theorem State.busy_eq_true (s : State) : s.busy = true ↔ s.pend ≠ .none := by simp [State.busy]

@[simp] theorem State.busy_eq_false (s : State) : s.busy = false ↔ s.pend = .none := by simp [State.busy]

@[simp] theorem State.errFlag_eq_true (s : State) : s.errFlag = true ↔ s.err ≠ 0#4 := by simp [State.errFlag]

@[simp] theorem State.dinFull_eq_true (s : State) : s.dinFull = true ↔ s.dinFill = 0b1111#4 := by simp [State.dinFull]

theorem setFillBit_getLsbD (f : BitVec 4) (k j : Fin 4) :
    (setFillBit f k).getLsbD j.val = (decide (j = k) || f.getLsbD j.val) := by
  revert f k j; decide

/-! ## Byte lanes (R71) -/

theorem lane_laneWord (q : Quad) (j : Fin 4) : lane (laneWord q) j.val = [q.b0, q.b1, q.b2, q.b3][j.val] := by
  fin_cases j <;> simp only [lane, laneWord] <;> ext i hi <;>
    simp [BitVec.getElem_extractLsb'] <;> grind

theorem quadOfWord_laneWord (q : Quad) : quadOfWord (laneWord q) = q := by
  have h0 := lane_laneWord q 0
  have h1 := lane_laneWord q 1
  have h2 := lane_laneWord q 2
  have h3 := lane_laneWord q 3
  simp only [quadOfWord] at *
  exact congrArg₂ (fun f x => f x) (congrArg₂ (fun f x => f x) (congrArg₂ Quad.mk h0 h1) h2) h3

/-! ## Bytes of an array -/

theorem byteAt_eq_getElem {n : Nat} (a : Vector Byte n) (k : Nat) (h : k < n) : byteAt a k = a[k] := by
  simp [byteAt, h]

theorem byteAt_set {n : Nat} (a : Vector Byte n) (i k : Nat) (x : Byte) (h : i < n) :
    byteAt (a.setIfInBounds i x) k = if i = k then x else byteAt a k := by
  by_cases hk : k < n
  · simp [byteAt, hk, Vector.getElem_setIfInBounds]
  · have : i ≠ k := by omega
    simp [byteAt, hk, this]

/-- Writing four bytes and reading one: inside the four bytes the new byte, elsewhere the old one. -/
theorem byteAt_putQuad {n : Nat} (a : Vector Byte n) (k m : Nat) (q : Quad) (h : k + 3 < n) :
    byteAt (putQuad a k q) m =
      if m = k then q.b0 else if m = k + 1 then q.b1 else if m = k + 2 then q.b2 else if m = k + 3 then q.b3
      else byteAt a m := by
  unfold putQuad
  rw [byteAt_set _ _ _ _ (by omega), byteAt_set _ _ _ _ (by omega), byteAt_set _ _ _ _ (by omega),
    byteAt_set _ _ _ _ (by omega)]
  grind

theorem quadAt_putQuad_same {n : Nat} (a : Vector Byte n) (k : Nat) (q : Quad) (h : k + 3 < n) :
    quadAt (putQuad a k q) k = q := by
  simp [quadAt, byteAt_putQuad _ _ _ _ h]

theorem quadAt_putQuad_of_disjoint {n : Nat} (a : Vector Byte n) (k m : Nat) (q : Quad) (h : k + 3 < n)
    (hm : m + 3 < k ∨ k + 3 < m) : quadAt (putQuad a k q) m = quadAt a m := by
  simp only [quadAt, byteAt_putQuad _ _ _ _ h]
  congr 1 <;> grind

@[simp] theorem roundKey_getElem (rk : Schedule) (i : Fin 11) (j : Nat) (h : j < 16) :
    (roundKey rk i)[j] = rk[16 * i.val + j]'(by omega) := by
  simp [roundKey]

end Sys2Proof.Machine
end

