-- ==== Sys2Proof/Laws/Bus.lean ====
section
/-! SUPPORT. The register map and the host accesses: which register an offset is, and everything an access can do. -/

namespace Sys2Proof.Machine

/-! ## The register map (R48) -/

theorem Reg.atOffset_din (off : Offset) (k : Fin 4) (h : off.toNat = 0x020 + 4 * k.val) : Reg.atOffset off = .din k := by
  have hk : (off.toNat - 0x020) / 4 = k.val := by omega
  unfold Reg.atOffset
  dsimp only
  rw [if_neg (by omega), if_neg (by omega), if_neg (by omega), if_neg (by omega), if_neg (by omega), if_neg (by omega),
    dif_pos (by omega)]
  simp only [hk, Fin.eta]

theorem Reg.atOffset_dout (off : Offset) (k : Fin 4) (h : off.toNat = 0x030 + 4 * k.val) :
    Reg.atOffset off = .dout k := by
  have hk : (off.toNat - 0x030) / 4 = k.val := by omega
  unfold Reg.atOffset
  dsimp only
  rw [if_neg (by omega), if_neg (by omega), if_neg (by omega), if_neg (by omega), if_neg (by omega), if_neg (by omega),
    dif_neg (by omega), dif_pos (by omega)]
  simp only [hk, Fin.eta]

theorem Reg.atOffset_rk (off : Offset) (m : Fin 44) (h : off.toNat = 0x100 + 4 * m.val) : Reg.atOffset off = .rk m := by
  have hk : (off.toNat - 0x100) / 4 = m.val := by omega
  unfold Reg.atOffset
  dsimp only
  rw [if_neg (by omega), if_neg (by omega), if_neg (by omega), if_neg (by omega), if_neg (by omega), if_neg (by omega),
    dif_neg (by omega), dif_neg (by omega), dif_pos (by omega)]
  simp only [hk, Fin.eta]

theorem Reg.atOffset_sb (off : Offset) (m : Fin 64) (h : off.toNat = 0x200 + 4 * m.val) : Reg.atOffset off = .sb m := by
  have hk : (off.toNat - 0x200) / 4 = m.val := by omega
  unfold Reg.atOffset
  dsimp only
  rw [if_neg (by omega), if_neg (by omega), if_neg (by omega), if_neg (by omega), if_neg (by omega), if_neg (by omega),
    dif_neg (by omega), dif_neg (by omega), dif_neg (by omega), dif_pos (by omega)]
  simp only [hk, Fin.eta]

theorem Reg.atOffset_reserved (off : Offset)
    (h : (0x018 ≤ off.toNat ∧ off.toNat < 0x020) ∨ (0x040 ≤ off.toNat ∧ off.toNat < 0x100) ∨
      (0x1B0 ≤ off.toNat ∧ off.toNat < 0x200) ∨ 0x300 ≤ off.toNat) : Reg.atOffset off = .reserved := by
  unfold Reg.atOffset
  dsimp only
  rw [if_neg (by omega), if_neg (by omega), if_neg (by omega), if_neg (by omega), if_neg (by omega), if_neg (by omega),
    dif_neg (by omega), dif_neg (by omega), dif_neg (by omega), dif_neg (by omega)]

/-- The offset of a register's name is the register's (R48, R110). -/
theorem Reg.atOffset_of_offset? (r : Reg) (off : Offset) (h : r.offset? = some off) : Reg.atOffset off = r := by
  cases r with
  | din k =>
    obtain rfl := Option.some.inj h
    exact Reg.atOffset_din _ k (by simp; omega)
  | dout k =>
    obtain rfl := Option.some.inj h
    exact Reg.atOffset_dout _ k (by simp; omega)
  | rk m =>
    obtain rfl := Option.some.inj h
    exact Reg.atOffset_rk _ m (by simp; omega)
  | sb m =>
    obtain rfl := Option.some.inj h
    exact Reg.atOffset_sb _ m (by simp; omega)
  | reserved => simp [Reg.offset?] at h
  | _ => obtain rfl := Option.some.inj h; rfl

theorem accessDefined_eq_true (size : Nat) (off : Offset) :
    accessDefined size off = true ↔ size = 4 ∧ off.toNat % 4 = 0 := by simp [accessDefined]

/-! ## Reads do not see the model's own fields -/

@[simp] theorem State.statusWord_setInbox (s : State) (es : List Event) : (s.setInbox es).statusWord = s.statusWord := rfl

@[simp] theorem State.readReg_setInbox (s : State) (es : List Event) (r : Reg) :
    (s.setInbox es).readReg r = s.readReg r := by cases r <;> rfl

@[simp] theorem State.readValue_setInbox (s : State) (es : List Event) (size : Nat) (off : Offset) :
    (s.setInbox es).readValue size off = s.readValue size off := by simp [State.readValue]

/-! ## Everything an access can do -/

/-- A host read leaves the engine as it is, or records ACCESS (R72, R75). -/
theorem State.readEffect_cases (s : State) (size : Nat) (off : Offset) :
    (accessDefined size off = true ∧ s.readEffect size off = s) ∨
    (accessDefined size off = false ∧ s.readEffect size off = afterError s .access (offsetInfo off)) := by
  unfold State.readEffect
  cases h : accessDefined size off
  · exact .inr ⟨rfl, State.raise_eq_afterError ..⟩
  · exact .inl ⟨rfl, rfl⟩

/-- A host write does nothing, records an error, issues a command, clears the error, or fills a DIN word, the last and
the issue only on an idle engine (R73). -/
theorem State.write_cases (s : State) (size : Nat) (off : Offset) (v : Word32) :
    s.write size off v = s ∨
    (∃ (e : ErrCause) (info : Word32), s.write size off v = afterError s e info) ∨
    (s.pend = .none ∧ s.err = 0#4 ∧ s.write size off v = s.accept v) ∨
    (s.write size off v = s.clearError ∧ size = 4 ∧ Reg.atOffset off = .err) ∨
    (∃ k : Fin 4, s.pend = .none ∧ Reg.atOffset off = .din k ∧ s.write size off v = s.writeDin k v) := by
  unfold State.write
  split
  · rename_i hd
    cases hr : Reg.atOffset off with
    | cmd =>
      simp only [State.writeReg, State.writeCmd]
      split
      · exact .inl rfl
      · split
        · exact .inr (.inl ⟨.busy, _, State.raise_eq_afterError ..⟩)
        · exact .inr (.inr (.inl ⟨by simp_all, by simp_all, rfl⟩))
    | err => exact .inr (.inr (.inr (.inl ⟨rfl, ((accessDefined_eq_true _ _).1 hd).1, rfl⟩)))
    | din k =>
      simp only [State.writeReg, State.writeDinReg]
      split
      · exact .inr (.inl ⟨.busy, _, State.raise_eq_afterError ..⟩)
      · exact .inr (.inr (.inr (.inr ⟨k, by simp_all, rfl, rfl⟩)))
    | _ => exact .inr (.inl ⟨.access, _, State.raise_eq_afterError ..⟩)
  · exact .inr (.inl ⟨.access, _, State.raise_eq_afterError ..⟩)

/-- While an operation is pending a host write changes at most `ERR` and `ERRINFO` (R73, R84). -/
theorem State.write_of_busy (s : State) (size : Nat) (off : Offset) (v : Word32) (h : s.pend ≠ .none) :
    ∃ (e : BitVec 4) (x : Word32), s.write size off v = { s with err := e, errInfo := x } := by
  rcases s.write_cases size off v with e | ⟨e, i, hw⟩ | ⟨hp, _⟩ | ⟨e, _⟩ | ⟨_, hp, _⟩
  · exact ⟨s.err, s.errInfo, e⟩
  · exact ⟨_, _, hw⟩
  · exact absurd hp h
  · exact ⟨_, _, e⟩
  · exact absurd hp h

end Sys2Proof.Machine
end

