-- ==== Sys2Proof/Laws/Decode.lean ====
section
/-! SUPPORT. The fields of an encoded word: each encoder puts its operands where the field readers look (R101, R102). -/

namespace Sys2Proof

/-! ## Encoding, then reading a field -/

@[simp] theorem opField_wordF0 (op : Byte) : opField (wordF0 op) = op := by
  show BitVec.extractLsb' 0 8 (0x000000#24 ++ op : BitVec (24 + 8)) = op
  ext i hi
  grind

@[simp] theorem opField_wordFA (a op : Byte) : opField (wordFA a op) = op := by
  show BitVec.extractLsb' 0 8 (0x0000#16 ++ a ++ op : BitVec (16 + 8 + 8)) = op
  ext i hi
  grind

@[simp] theorem opField_wordFAB (b a op : Byte) : opField (wordFAB b a op) = op := by
  show BitVec.extractLsb' 0 8 (0x00#8 ++ b ++ a ++ op : BitVec (8 + 8 + 8 + 8)) = op
  ext i hi
  grind

@[simp] theorem opField_wordFN (n : Nat) (op : Byte) : opField (wordFN n op) = op := by
  show BitVec.extractLsb' 0 8 (0x00000#20 ++ BitVec.ofNat 4 n ++ op : BitVec (20 + 4 + 8)) = op
  ext i hi
  grind

@[simp] theorem aField_wordFA (a op : Byte) : aField (wordFA a op) = a := by
  show BitVec.extractLsb' 8 8 (0x0000#16 ++ a ++ op : BitVec (16 + 8 + 8)) = a
  ext i hi
  grind

@[simp] theorem aField_wordFAB (b a op : Byte) : aField (wordFAB b a op) = a := by
  show BitVec.extractLsb' 8 8 (0x00#8 ++ b ++ a ++ op : BitVec (8 + 8 + 8 + 8)) = a
  ext i hi
  grind

@[simp] theorem bField_wordFAB (b a op : Byte) : bField (wordFAB b a op) = b := by
  show BitVec.extractLsb' 16 8 (0x00#8 ++ b ++ a ++ op : BitVec (8 + 8 + 8 + 8)) = b
  ext i hi
  grind

theorem nField_wordFN (n : Nat) (op : Byte) (h : n < 16) : nField (wordFN n op) = n := by
  have key : BitVec.extractLsb' 8 4 (0x00000#20 ++ BitVec.ofNat 4 n ++ op : BitVec (20 + 4 + 8)) = BitVec.ofNat 4 n := by
    ext i hi
    grind
  show (BitVec.extractLsb' 8 4 (0x00000#20 ++ BitVec.ofNat 4 n ++ op : BitVec (20 + 4 + 8))).toNat = n
  rw [key]
  simp; omega

/-! ## The must-be-zero masks as fields -/

/-- A mask of all bits from `k` on leaves zero exactly when those bits are zero. -/
theorem and_highMask_eq_zero_iff {n : Nat} (w : BitVec n) (k : Nat) :
    w &&& (BitVec.allOnes n <<< k) = 0#n ↔ w.extractLsb' k (n - k) = 0#(n - k) := by
  constructor <;> intro e
  · ext i hi
    have := congrArg (fun v => v.getLsbD (k + i)) e
    simpa [show k + i < n by omega] using this
  · ext i hi
    have := congrArg (fun v => v.getLsbD (i - k)) e
    simp only [BitVec.getLsbD_extractLsb', BitVec.getLsbD_zero] at this
    simp only [BitVec.getElem_and, BitVec.getElem_shiftLeft, BitVec.getElem_allOnes, BitVec.getElem_zero]
    by_cases hk : i < k
    · simp [hk]
    · have e2 : k + (i - k) = i := by omega
      simpa [e2, hk, hi, show i - k < n - k by omega] using this

/-- Which field a format's must-be-zero mask reads (R102). -/
theorem and_mustBeZeroMask_eq_zero_iff (w : Word32) (f : Format) :
    w &&& mustBeZeroMask f = 0#32 ↔
      match f with
      | .f0 => w.extractLsb' 8 24 = 0#24
      | .fa => w.extractLsb' 16 16 = 0#16
      | .fab => w.extractLsb' 24 8 = 0#8
      | .fn => w.extractLsb' 12 20 = 0#20 := by
  cases f
  · exact and_highMask_eq_zero_iff w 8
  · exact and_highMask_eq_zero_iff w 16
  · exact and_highMask_eq_zero_iff w 24
  · exact and_highMask_eq_zero_iff w 12

/-- What `decode` does with the second check of R105. -/
theorem checkZeroBits_eq_ok_iff (w : Word32) (i j : Instr) :
    checkZeroBits w i = .ok j ↔ i = j ∧ w &&& mustBeZeroMask i.format = 0#32 := by
  unfold checkZeroBits
  split <;> simp_all

end Sys2Proof
end

