-- ==== Sys2Proof/Laws/Exec.lean ====
section
/-! SUPPORT. Everything a command and an ENGINE turn can do, said once, for the proofs about steps. -/

namespace Sys2Proof.Machine

/-- Every command answers a next state with `PEND = None`, and leaves the S-box and the model's own fields alone. -/
theorem exec_next (i : Instr) (s : State) :
    ∃ t : State, exec i s = .next t ∧ t.pend = .none ∧ t.sbox = s.sbox ∧ t.sboxValid = s.sboxValid ∧
      t.inbox = s.inbox ∧ t.replies = s.replies := by
  cases i with
  | ldkey =>
    simp only [exec, execLdkey]
    split
    · exact ⟨_, rfl, by simp⟩
    · split <;> exact ⟨_, rfl, by simp⟩
  | enc =>
    simp only [exec, execEnc]
    split
    · exact ⟨_, rfl, by simp⟩
    · split <;> exact ⟨_, rfl, by simp⟩
  | ldst =>
    simp only [exec, execLdst]
    split <;> exact ⟨_, rfl, by simp⟩
  | addrk n =>
    simp only [exec, execAddrk]
    split
    · split <;> exact ⟨_, rfl, by simp⟩
    · exact ⟨_, rfl, by simp⟩
  | _ => exact ⟨_, rfl, by simp⟩

/-- A command records an error, or leaves `ERR` and `ERRINFO` alone (R244). -/
theorem exec_error_cases (i : Instr) (s t : State) (h : exec i s = .next t) :
    (t.err = s.err ∧ t.errInfo = s.errInfo) ∨ (∃ e : ErrCause, t = s.failCommand e (encode i)) := by
  cases i with
  | ldkey =>
    simp only [exec, execLdkey] at h
    split at h
    · cases h; exact .inr ⟨_, rfl⟩
    · split at h <;> cases h
      · exact .inr ⟨_, rfl⟩
      · exact .inl (by simp)
  | enc =>
    simp only [exec, execEnc] at h
    split at h
    · cases h; exact .inr ⟨_, rfl⟩
    · split at h <;> cases h
      · exact .inr ⟨_, rfl⟩
      · exact .inl (by simp)
  | ldst =>
    simp only [exec, execLdst] at h
    split at h <;> cases h
    · exact .inr ⟨_, rfl⟩
    · exact .inl (by simp)
  | addrk n =>
    simp only [exec, execAddrk] at h
    split at h
    · split at h <;> cases h
      · exact .inr ⟨_, rfl⟩
      · exact .inl (by simp)
    · cases h; exact .inr ⟨_, rfl⟩
  | _ => cases h; exact .inl (by simp)

/-- A command leaves the key alone, loads one when none is loaded, or is CLRKEY (R35). -/
theorem exec_key_cases (i : Instr) (s t : State) (h : exec i s = .next t) :
    (t.rk = s.rk ∧ t.keyValid = s.keyValid) ∨
    (i = .ldkey ∧ s.keyValid = false ∧ t.rk = expand s.sbox s.din ∧ t.keyValid = true) ∨
    (i = .clrkey ∧ t.rk = Vector.replicate 176 0x00#8 ∧ t.keyValid = false) := by
  cases i with
  | ldkey =>
    simp only [exec, execLdkey] at h
    split at h
    · cases h; exact .inl (by simp)
    · split at h <;> cases h
      · exact .inl (by simp)
      · exact .inr (.inl (by simp_all))
  | clrkey => cases h; exact .inr (.inr (by simp))
  | enc =>
    simp only [exec, execEnc] at h
    split at h
    · cases h; exact .inl (by simp)
    · split at h <;> cases h <;> exact .inl (by simp)
  | ldst =>
    simp only [exec, execLdst] at h
    split at h <;> cases h <;> exact .inl (by simp)
  | addrk n =>
    simp only [exec, execAddrk] at h
    split at h
    · split at h <;> cases h <;> exact .inl (by simp)
    · cases h; exact .inl (by simp)
  | _ => cases h; exact .inl (by simp)

/-- Everything an ENGINE turn can be: nothing, GEN, an illegal word, or a command (R76). -/
theorem engineTurn_cases (s : State) :
    (s.pend = .none ∧ engineTurn s = .next s) ∨
    (s.pend = .gen ∧ engineTurn s = .next ((s.installSbox (generate s.sbox)).retire)) ∨
    (∃ (w : Word32) (r : DecodeReject), s.pend = .cmd w ∧ decode w = .error r ∧
      engineTurn s = .next (s.failCommand .illegal w)) ∨
    (∃ (w : Word32) (i : Instr), s.pend = .cmd w ∧ decode w = .ok i ∧ engineTurn s = exec i s) := by
  unfold engineTurn
  cases hp : s.pend with
  | none => exact .inl (by simp)
  | gen => exact .inr (.inl ⟨rfl, rfl⟩)
  | cmd w =>
    cases hd : decode w with
    | error r => exact .inr (.inr (.inl ⟨w, r, rfl, hd, by simp [hd]⟩))
    | ok i => exact .inr (.inr (.inr ⟨w, i, rfl, hd, by simp [hd]⟩))

/-- An ENGINE turn answers a next state with `PEND = None`, and leaves the model's own fields alone. -/
theorem engineTurn_next (s : State) :
    ∃ t : State, engineTurn s = .next t ∧ t.pend = .none ∧ t.inbox = s.inbox ∧ t.replies = s.replies := by
  rcases engineTurn_cases s with ⟨hp, e⟩ | ⟨_, e⟩ | ⟨_, _, _, _, e⟩ | ⟨w, i, _, _, e⟩
  · exact ⟨s, e, hp, rfl, rfl⟩
  · exact ⟨_, e, by simp⟩
  · exact ⟨_, e, by simp⟩
  · obtain ⟨t, ht, hp, _, _, hi, hr⟩ := exec_next i s
    exact ⟨t, e.trans ht, hp, hi, hr⟩

end Sys2Proof.Machine
end

