-- ==== Sys2Proof/Laws/Galois.lean ====
section
/-! SUPPORT. Doubling in the field is linear: the base of the field laws and of the laws of MixColumns. -/

namespace Sys2Proof.Machine

/-- Doubling without a branch: the reduction is a mask of the high bit. -/
theorem times2_eq (b : Byte) : times2 b = (b <<< 1) ^^^ (if b.getLsbD 7 then 0x1B#8 else 0x00#8) := by
  unfold times2
  split <;> simp

/-- Doubling distributes over field addition. -/
theorem times2_xor (a b : Byte) : times2 (a ^^^ b) = times2 a ^^^ times2 b := by
  have hs : (a ^^^ b) <<< 1 = (a <<< 1) ^^^ (b <<< 1) := BitVec.shiftLeft_xor_distrib ..
  rw [times2_eq, times2_eq, times2_eq, hs, BitVec.getLsbD_xor]
  generalize a <<< 1 = x
  generalize b <<< 1 = y
  have comm : ∀ p q : Bool, (p != q) = (q != p) := by decide
  have cancel : ∀ p q : Bool, p = (q != (p ^^ q)) := by decide
  cases a.getLsbD 7 <;> cases b.getLsbD 7 <;> ext i hi <;> simp [BitVec.getElem_xor]
  · exact comm _ _
  · exact cancel _ _

/-- Tripling distributes over field addition. -/
theorem times3_xor (a b : Byte) : times3 (a ^^^ b) = times3 a ^^^ times3 b := by
  unfold times3
  rw [times2_xor]
  ac_rfl

end Sys2Proof.Machine
end

