-- ==== Sys2Proof/Laws/HostProgram.lean ====
section
/-! SUPPORT. Accesses of a host program at an offset, inside the window and outside it, and the block `rdblk` has read. -/

namespace Sys2Proof.Machine

/-! ## Offsets -/

theorem windowOffset?_of_lt {off : Nat} (h : off < 0x400) : windowOffset? off = some (BitVec.ofNat 10 off) := by
  simp [windowOffset?, h]

theorem windowOffset?_of_le {off : Nat} (h : 0x400 ≤ off) : windowOffset? off = none := by
  simp [windowOffset?, h]

/-! ## Accesses -/

/-- Everything `memWrite` can do. -/
theorem State.memWrite_cases (s : State) (off : Nat) (v : Word32) :
    (off < 0x400 ∧ s.memWrite off v = s.write 4 (BitVec.ofNat 10 off) v) ∨ (0x400 ≤ off ∧ s.memWrite off v = s) := by
  rcases Nat.lt_or_ge off 0x400 with h | h
  · exact .inl ⟨h, by simp [State.memWrite, windowOffset?_of_lt h]⟩
  · exact .inr ⟨h, by simp [State.memWrite, windowOffset?_of_le h]⟩

/-- A read at an aligned offset of the window changes nothing and returns its word (R72). -/
theorem State.memRead_of_aligned (s : State) (off : Offset) (n : Nat) (h : off.toNat % 4 = 0) :
    s.memReadEffect off.toNat = s ∧ s.memReadValue off.toNat n = s.readReg (Reg.atOffset off) := by
  have hd : accessDefined 4 off = true := (accessDefined_eq_true 4 off).2 ⟨rfl, h⟩
  have ho : windowOffset? off.toNat = some off := by rw [windowOffset?_of_lt off.isLt]; simp
  simp [State.memReadEffect, State.memReadValue, State.readEffect, State.readValue, ho, hd]

/-! ## Host variables and blocks -/

/-- A variable has the value last read into it. -/
@[simp] theorem HostAgent.value_cons (p : List HostOp) (n x y : Nat) (w : Word32) (vs : List (Nat × Word32)) :
    HostAgent.value ⟨p, n, (x, w) :: vs⟩ y = if x = y then w else HostAgent.value ⟨p, n, vs⟩ y := by
  by_cases h : x = y <;> simp [HostAgent.value, h]

/-- "Block byte `4k+j` is `X_k[8j+7:8j]`" (R111). -/
theorem HostAgent.blockAt_getElem (h : HostAgent) (x : Nat) (k j : Fin 4) :
    (h.blockAt x)[4 * k.val + j.val]'(by omega) = lane (h.value (x + k.val)) j.val := by
  simp only [HostAgent.blockAt, Vector.getElem_ofFn]
  rw [show (4 * k.val + j.val) / 4 = k.val by omega, show (4 * k.val + j.val) % 4 = j.val by omega]

end Sys2Proof.Machine
end

