-- ==== Sys2Proof/Laws/KeySchedule.lean ====
section
/-! SUPPORT. The expansion loop of R173: it never changes a byte it has already produced, and one turn of it writes four
bytes at `n`. -/

namespace Sys2Proof.Machine

/-- The four bytes one turn of the loop writes at `n` (R173). -/
def nextQuad (t : SboxTable) (n ri : Nat) (w : Schedule) : Quad :=
  if n % 16 = 0 then xorQuad (xorFirst (subWord t (rotWord (quadAt w (n - 4)))) (rconAt ri)) (quadAt w (n - 16))
  else xorQuad (quadAt w (n - 4)) (quadAt w (n - 16))

/-- One turn of the loop, both branches in one form. -/
theorem expandLoop_succ (t : SboxTable) (k n ri : Nat) (w : Schedule) :
    expandLoop t (k + 1) n ri w =
      expandLoop t k (n + 4) (if n % 16 = 0 then ri + 1 else ri) (putQuad w n (nextQuad t n ri w)) := by
  by_cases h : n % 16 = 0 <;> simp [expandLoop, nextQuad, h]

/-- The loop leaves the bytes below `n` alone. -/
theorem byteAt_expandLoop_of_lt (t : SboxTable) (k n ri m : Nat) (w : Schedule) (hk : n + 4 * k ≤ 176) (hm : m < n) :
    byteAt (expandLoop t k n ri w) m = byteAt w m := by
  induction k generalizing n ri w with
  | zero => rfl
  | succ k ih =>
    rw [expandLoop_succ, ih _ _ _ (by omega) (by omega), byteAt_putQuad _ _ _ _ (by omega)]
    grind

end Sys2Proof.Machine
end

