-- ==== Sys2Proof/Laws/PerInstr.lean ====
section
/-! SUPPORT. What holds of every command as syntax, one lemma per constructor. Family `ReservedBits`: the encoder never
sets a must-be-zero bit (R102). -/

namespace Sys2Proof.Laws.ReservedBits

/-- The encoding of a command has its must-be-zero bits zero. -/
def Statement (i : Instr) : Prop := encode i &&& mustBeZeroMask i.format = 0#32

theorem nop : Statement .nop := by unfold Statement; decide
theorem ldkey : Statement .ldkey := by unfold Statement; decide
theorem enc : Statement .enc := by unfold Statement; decide
theorem clrkey : Statement .clrkey := by unfold Statement; decide
theorem ldst : Statement .ldst := by unfold Statement; decide
theorem subb : Statement .subb := by unfold Statement; decide
theorem shrow : Statement .shrow := by unfold Statement; decide
theorem mixcol : Statement .mixcol := by unfold Statement; decide
theorem stst : Statement .stst := by unfold Statement; decide

theorem highBits_wordFA (a op : Byte) : wordFA a op &&& mustBeZeroMask .fa = 0#32 := by
  rw [and_mustBeZeroMask_eq_zero_iff]
  show BitVec.extractLsb' 16 16 (0x0000#16 ++ a ++ op : BitVec (16 + 8 + 8)) = 0#16
  ext i hi
  grind

theorem highBits_wordFAB (b a op : Byte) : wordFAB b a op &&& mustBeZeroMask .fab = 0#32 := by
  rw [and_mustBeZeroMask_eq_zero_iff]
  show BitVec.extractLsb' 24 8 (0x00#8 ++ b ++ a ++ op : BitVec (8 + 8 + 8 + 8)) = 0#8
  ext i hi
  grind

theorem highBits_wordFN (n : Nat) (op : Byte) : wordFN n op &&& mustBeZeroMask .fn = 0#32 := by
  rw [and_mustBeZeroMask_eq_zero_iff]
  show BitVec.extractLsb' 12 20 (0x00000#20 ++ BitVec.ofNat 4 n ++ op : BitVec (20 + 4 + 8)) = 0#20
  ext i hi
  grind

theorem gmul2 (a : Byte) : Statement (.gmul2 a) := highBits_wordFA a 0x10#8
theorem gmul3 (a : Byte) : Statement (.gmul3 a) := highBits_wordFA a 0x11#8
theorem gmul (a b : Byte) : Statement (.gmul a b) := highBits_wordFAB b a 0x12#8
theorem sboxlu (a : Byte) : Statement (.sboxlu a) := highBits_wordFA a 0x13#8
theorem addrk (n : Nat) : Statement (.addrk n) := highBits_wordFN n 0x24#8

end Sys2Proof.Laws.ReservedBits
end

