-- ==== Sys2Proof/Laws/Platform.lean ====
section
/-! SUPPORT. The windows of a platform do not overlap, so an address has at most one engine (R79, R256), and an access is
an event of that engine. -/

namespace Sys2Proof.Machine

/-! ## Windows -/

theorem Config.windowIndex_lt {j k : Nat} (h : j < k) : Config.windowIndex j < Config.windowIndex k := by
  induction k with
  | zero => omega
  | succ k ih =>
    rw [Config.windowIndex]
    rcases Nat.lt_succ_iff_lt_or_eq.1 h with hj | rfl
    · have := ih hj
      omega
    · omega

/-- A window ends before the next engine's begins. -/
theorem Config.base_add_le_base {j k : Nat} (h : j < k) : Config.base j + 0x400 ≤ Config.base k := by
  have := Config.windowIndex_lt h
  unfold Config.base
  omega

theorem inWindow_eq_true_iff (k addr : Nat) :
    inWindow k addr = true ↔ Config.base k ≤ addr ∧ addr < Config.base k + 0x400 := by simp [inWindow]

/-- No address lies in two windows: "each with its own window at its own `BASE`" (R256). -/
theorem inWindow_unique {j k addr : Nat} (hj : inWindow j addr = true) (hk : inWindow k addr = true) : j = k := by
  rw [inWindow_eq_true_iff] at hj hk
  rcases Nat.lt_trichotomy j k with h | h | h
  · have := Config.base_add_le_base h
    omega
  · exact h
  · have := Config.base_add_le_base h
    omega

/-- The engine at an address, said once: every engine of the platform is reached in the whole of its window. -/
theorem engineAt_eq_some_iff (n k addr : Nat) : engineAt n addr = some k ↔ k < n ∧ inWindow k addr = true := by
  constructor
  · intro h
    exact ⟨List.mem_range.1 (List.mem_of_find?_eq_some h), by simpa using List.find?_some h⟩
  · rintro ⟨hk, hw⟩
    cases he : engineAt n addr with
    | none => exact absurd hw (by simpa using List.find?_eq_none.1 he k (List.mem_range.2 hk))
    | some j =>
      have hj : inWindow j addr = true := by simpa using List.find?_some he
      rw [inWindow_unique hj hw]

theorem inWindow_base_add (k : Nat) (off : Offset) : inWindow k (Config.base k + off.toNat) = true := by
  have := off.isLt
  rw [inWindow_eq_true_iff]
  omega

@[simp] theorem windowOffset_base_add (k : Nat) (off : Offset) : windowOffset k (Config.base k + off.toNat) = off := by
  simp [windowOffset]

/-! ## Accesses -/

/-- Every event answers a next state (R240). -/
theorem applyEvent_next (e : Event) (s : State) : ∃ t : State, applyEvent e s = .next t := by
  cases e with
  | engine => exact (engineTurn_next s).imp fun _ h => h.1
  | _ => exact ⟨_, rfl⟩

/-- An event at engine `k`: that engine takes it, and no other changes. -/
theorem Platform.apply_eq {p : Platform} {k : Nat} {e : Event} {s t : State} (hs : p.engines[k]? = some s)
    (ht : applyEvent e s = .next t) : p.apply k e = .next ⟨p.engines.set k t⟩ := by
  simp [Platform.apply, hs, ht]

/-- An access at an address of engine `k` is its event there. -/
theorem Platform.access_of_engineAt {p : Platform} {a : BusAccess} {k : Nat} {s t : State}
    (hk : engineAt p.engines.length a.addr = some k) (hs : p.engines[k]? = some s)
    (ht : applyEvent (a.toEvent k) s = .next t) : p.access a = .next ⟨p.engines.set k t⟩ := by
  unfold Platform.access
  rw [hk]
  exact Platform.apply_eq hs ht

/-- Everything an access can do: nothing outside every window, else one event of one engine. -/
theorem Platform.access_cases (p : Platform) (a : BusAccess) :
    (engineAt p.engines.length a.addr = none ∧ p.access a = .next p) ∨
    (∃ (k : Nat) (s t : State), engineAt p.engines.length a.addr = some k ∧ p.engines[k]? = some s ∧
      applyEvent (a.toEvent k) s = .next t ∧ p.access a = .next ⟨p.engines.set k t⟩) := by
  cases h : engineAt p.engines.length a.addr with
  | none => exact .inl ⟨rfl, by simp [Platform.access, h]⟩
  | some k =>
    have hk := ((engineAt_eq_some_iff _ _ _).1 h).1
    have hs := List.getElem?_eq_getElem hk
    obtain ⟨t, ht⟩ := applyEvent_next (a.toEvent k) (p.engines[k]'hk)
    exact .inr ⟨k, _, t, rfl, hs, ht, Platform.access_of_engineAt h hs ht⟩

/-- An access answers a platform of as many engines. -/
theorem Platform.access_next (p : Platform) (a : BusAccess) :
    ∃ q : Platform, p.access a = .next q ∧ q.engines.length = p.engines.length := by
  rcases p.access_cases a with ⟨_, h⟩ | ⟨_, _, _, _, _, _, h⟩
  · exact ⟨_, h, rfl⟩
  · exact ⟨_, h, by simp⟩

end Sys2Proof.Machine
end

