-- ==== Sys2Proof/Tests/Slice0.lean ====
section
/-! SUPPORT. Tests of the model against values the spec gives (spec/95_test_vectors.md and the rules' own examples), and
for every obligation with hypotheses a concrete case that meets them. -/

namespace Sys2Proof.Machine.Tests

/-! ## Small states -/

/-- An idle engine after GEN, without a key. -/
def ready : State := { State.reset with sbox := sboxTable, sboxValid := true, pend := .none }

/-- The key `000102...0f` of V-L1-1. -/
def key : Block :=
  #v[0x00#8, 0x01#8, 0x02#8, 0x03#8, 0x04#8, 0x05#8, 0x06#8, 0x07#8,
     0x08#8, 0x09#8, 0x0A#8, 0x0B#8, 0x0C#8, 0x0D#8, 0x0E#8, 0x0F#8]

/-- The plaintext `001122...ff` of V-L1-1. -/
def plain : Block :=
  #v[0x00#8, 0x11#8, 0x22#8, 0x33#8, 0x44#8, 0x55#8, 0x66#8, 0x77#8,
     0x88#8, 0x99#8, 0xAA#8, 0xBB#8, 0xCC#8, 0xDD#8, 0xEE#8, 0xFF#8]

/-- The input of round 1's MixColumns in V-BE-1. -/
def roundOneShifted : Block :=
  #v[0x63#8, 0x53#8, 0xE0#8, 0x8C#8, 0x09#8, 0x60#8, 0xE1#8, 0x04#8,
     0xCD#8, 0x70#8, 0xB7#8, 0x51#8, 0xBA#8, 0xCA#8, 0xD0#8, 0xE7#8]

/-- The state after round 1 in V-BE-1 (`r1` of P2). -/
def roundOne : Block :=
  #v[0x89#8, 0xD8#8, 0x10#8, 0xE8#8, 0x85#8, 0x5A#8, 0xCE#8, 0x68#8,
     0x2D#8, 0x18#8, 0x43#8, 0xD8#8, 0xCB#8, 0x12#8, 0x8F#8, 0xE4#8]

/-- An idle engine after GEN with `DIN` full. -/
def loaded (b : Block) : State := { ready with din := b, dinFill := 0b1111#4 }

/-- An idle engine with the key loaded and `DIN` full of plaintext. -/
def keyed : State := { loaded plain with rk := expand sboxTable key, keyValid := true }

/-- What `f` sees after one ENGINE turn with command word `w` pending. -/
def afterWord {α : Type} (f : State → α) (w : Word32) (s : State) : Option α :=
  match step (s.accept w) with
  | .next t => some (f t)
  | .fault _ => none
  | .refused _ => none

/-- What `f` sees after as many steps as there are events. -/
def afterEvents {α : Type} (f : State → α) (es : List Event) (s : State) : Option α :=
  match runSteps es.length (s.setInbox es) with
  | .next t => some (f t)
  | .fault _ => none
  | .refused _ => none

/-- The error registers. -/
def errors (s : State) : BitVec 4 × Word32 := (s.err, s.errInfo)

/-! ## WellFormed smoke: ill-formed terms the checks refuse -/

/-- R103: `N` has four bits. -/
theorem test_wellFormed_refuses_round_key_16 :
    (Instr.addrk 16).wellFormed = false ∧ (Instr.addrk 15).wellFormed = true := by decide

/-- R109: "An assembler refuses ... an `N` above 10". -/
theorem test_assemblable_refuses_round_key_11 :
    (Instr.addrk 11).assemblable = false ∧ (Instr.addrk 10).assemblable = true := by decide

/-! ## Decoding: words written out from R102 and R104 (V-ENC) -/

theorem test_decode_nop : decode 0b00000000000000000000000000000000#32 = .ok .nop := by decide
theorem test_decode_ldkey : decode 0b00000000000000000000000000000001#32 = .ok .ldkey := by decide
theorem test_decode_enc : decode 0b00000000000000000000000000000010#32 = .ok .enc := by decide
theorem test_decode_clrkey : decode 0b00000000000000000000000000000011#32 = .ok .clrkey := by decide
theorem test_decode_gmul2 : decode 0b00000000000000000101011100010000#32 = .ok (.gmul2 0x57#8) := by decide
theorem test_decode_gmul3 : decode 0b00000000000000000101011100010001#32 = .ok (.gmul3 0x57#8) := by decide
theorem test_decode_gmul : decode 0b00000000100000110101011100010010#32 = .ok (.gmul 0x57#8 0x83#8) := by decide
theorem test_decode_sboxlu : decode 0b00000000000000000101001100010011#32 = .ok (.sboxlu 0x53#8) := by decide
theorem test_decode_ldst : decode 0b00000000000000000000000000100000#32 = .ok .ldst := by decide
theorem test_decode_subb : decode 0b00000000000000000000000000100001#32 = .ok .subb := by decide
theorem test_decode_shrow : decode 0b00000000000000000000000000100010#32 = .ok .shrow := by decide
theorem test_decode_mixcol : decode 0b00000000000000000000000000100011#32 = .ok .mixcol := by decide
theorem test_decode_addrk : decode 0b00000000000000000000101000100100#32 = .ok (.addrk 10) := by decide
theorem test_decode_stst : decode 0b00000000000000000000000000100101#32 = .ok .stst := by decide

/-- The ILLEGAL rows of V-ENC, each refused by the name of its check. -/
theorem test_decode_refuses_illegal_words :
    decode 0x00000004#32 = .error .undefinedOp ∧ decode 0xFFFFFFFF#32 = .error .undefinedOp ∧
    decode 0x01000002#32 = .error .mustBeZeroBit ∧ decode 0x00001024#32 = .error .mustBeZeroBit ∧
    decode 0x0000FF01#32 = .error .mustBeZeroBit ∧ decode 0x00000100#32 = .error .mustBeZeroBit ∧
    decode 0x10000010#32 = .error .mustBeZeroBit := by decide

/-- A table row's word reads as the decoder reads it. -/
theorem test_decodeTableWord :
    decodeTableWord 32 0x00835712 = some (.gmul 0x57#8 0x83#8) ∧ decodeTableWord 32 0x01000002 = none := by decide

/-! ## One step of each command -/

/-- R225; `PEND <- None` and no error. -/
theorem test_nop : afterWord (fun t => (t.pend, errors t)) 0x00000000#32 ready =
    some (.none, 0x0#4, 0x00000000#32) := by decide +kernel

/-- V-BUS: the first word of round key 1 of the key `000102...0f`. -/
theorem test_ldkey : afterWord (fun t => (t.statusWord, t.readReg (.rk 4))) 0x00000001#32 (loaded key) =
    some (0x00000006#32, 0xFD74AAD6#32) := by decide +kernel

/-- V-ERR: LDKEY with a key loaded, and with three words of `DIN`. -/
theorem test_ldkey_errors :
    afterWord errors 0x00000001#32 keyed = some (0x4#4, 0x00000001#32) ∧
    afterWord errors 0x00000001#32 { ready with dinFill := 0b0111#4 } = some (0x7#4, 0x00000001#32) := by decide +kernel

/-- V-L1-1. -/
theorem test_enc : afterWord (fun t => (t.statusWord, t.dout.toList)) 0x00000002#32 keyed =
    some (0x00000006#32, [0x69#8, 0xC4#8, 0xE0#8, 0xD8#8, 0x6A#8, 0x7B#8, 0x04#8, 0x30#8,
      0xD8#8, 0xCD#8, 0xB7#8, 0x80#8, 0x70#8, 0xB4#8, 0xC5#8, 0x5A#8]) := by decide +kernel

/-- V-ERR: NOKEY comes before TRUNC, and the failed command keeps `DIN_FILL`. -/
theorem test_enc_errors :
    afterWord errors 0x00000002#32 ready = some (0x3#4, 0x00000002#32) ∧
    afterWord errors 0x00000002#32 { keyed with dinFill := 0b0000#4 } = some (0x6#4, 0x00000002#32) ∧
    afterWord State.statusWord 0x00000002#32 (loaded plain) = some 0x000000FA#32 := by decide +kernel

/-- P4: CLRKEY ends the session and zeroes the block registers. -/
theorem test_clrkey : afterWord (fun t => (t.statusWord, t.din, t.readReg (.rk 40))) 0x00000003#32 keyed =
    some (0x00000002#32, Vector.replicate 16 0x00#8, 0x00000000#32) := by decide +kernel

theorem test_gmul2 : afterWord State.res 0x00008010#32 ready = some 0x1B#8 := by decide +kernel
theorem test_gmul3 : afterWord State.res 0x00005711#32 ready = some 0xF9#8 := by decide +kernel
theorem test_gmul : afterWord State.res 0x00835712#32 ready = some 0xC1#8 := by decide +kernel

/-- P3: `gmul 0x03, 0xF6`, where swapped operand fields would still agree, so the field order is seen by the decode test. -/
theorem test_gmul_inverse_pair : afterWord State.res 0x00F60312#32 ready = some 0x01#8 := by decide +kernel

theorem test_sboxlu : afterWord State.res 0x00005313#32 ready = some 0xED#8 := by decide +kernel

/-- P4: LDST consumes `DIN`. -/
theorem test_ldst : afterWord (fun t => (t.state, t.statusWord)) 0x00000020#32 (loaded plain) =
    some (plain, 0x00000002#32) := by decide +kernel

theorem test_ldst_trunc : afterWord errors 0x00000020#32 { ready with dinFill := 0b1110#4 } =
    some (0x6#4, 0x00000020#32) := by decide +kernel

/-- V-BE-1, round 1. -/
theorem test_subb :
    afterWord State.state 0x00000021#32 { ready with state := #v[0x00#8, 0x10#8, 0x20#8, 0x30#8, 0x40#8, 0x50#8, 0x60#8, 0x70#8, 0x80#8, 0x90#8, 0xA0#8, 0xB0#8, 0xC0#8, 0xD0#8, 0xE0#8, 0xF0#8] } =
      some #v[0x63#8, 0xCA#8, 0xB7#8, 0x04#8, 0x09#8, 0x53#8, 0xD0#8, 0x51#8, 0xCD#8, 0x60#8, 0xE0#8, 0xE7#8, 0xBA#8, 0x70#8, 0xE1#8, 0x8C#8] := by
  decide +kernel

/-- V-L1-7. -/
theorem test_shrow :
    afterWord State.state 0x00000022#32 { ready with state := key } =
      some #v[0x00#8, 0x05#8, 0x0A#8, 0x0F#8, 0x04#8, 0x09#8, 0x0E#8, 0x03#8, 0x08#8, 0x0D#8, 0x02#8, 0x07#8, 0x0C#8, 0x01#8, 0x06#8, 0x0B#8] := by
  decide +kernel

/-- V-BE-1, round 1. -/
theorem test_mixcol :
    afterWord State.state 0x00000023#32 { ready with state := roundOneShifted } =
      some #v[0x5F#8, 0x72#8, 0x64#8, 0x15#8, 0x57#8, 0xF5#8, 0xBC#8, 0x92#8, 0xF7#8, 0xBE#8, 0x3B#8, 0x29#8, 0x1D#8, 0xB9#8, 0xF9#8, 0x1A#8] := by
  decide +kernel

/-- V-BE-1, the end of round 1. -/
theorem test_addrk :
    afterWord State.state 0x00000124#32 { keyed with state := #v[0x5F#8, 0x72#8, 0x64#8, 0x15#8, 0x57#8, 0xF5#8, 0xBC#8, 0x92#8, 0xF7#8, 0xBE#8, 0x3B#8, 0x29#8, 0x1D#8, 0xB9#8, 0xF9#8, 0x1A#8] } =
      some roundOne := by
  decide +kernel

/-- V-ERR: RANGE comes before NOKEY. -/
theorem test_addrk_errors :
    afterWord errors 0x00000B24#32 keyed = some (0x5#4, 0x00000B24#32) ∧
    afterWord errors 0x00000C24#32 ready = some (0x5#4, 0x00000C24#32) ∧
    afterWord errors 0x00000A24#32 ready = some (0x3#4, 0x00000A24#32) := by decide +kernel

/-- P2: the first word of `r1`. -/
theorem test_stst : afterWord (fun t => t.readReg (.dout 0)) 0x00000025#32 { ready with state := roundOne } =
    some 0xE810D889#32 := by decide +kernel

/-- V-ERR: an illegal word. -/
theorem test_illegal_word : afterWord (fun t => (t.pend, errors t)) 0x00000004#32 ready =
    some (.none, 0x1#4, 0x00000004#32) := by decide +kernel

/-! ## GEN and host accesses -/

/-- V-SB: GEN leaves the table of R156, whatever it found. -/
theorem test_gen : (generate (Vector.replicate 256 0x00#8)).toList = sboxBytes := by decide +kernel

/-- V-BUS: accesses before GEN. -/
theorem test_accesses_before_gen :
    afterEvents State.replies [.read 4 0x004#10, .read 4 0x200#10, .read 4 0x000#10, .read 4 0x014#10] State.reset =
      some [0x0000A128#32, 0x00000000#32, 0x00000000#32, 0x00000001#32] ∧
    afterEvents (fun t => (errors t, t.pend)) [.write 4 0x000#10 0x00000001#32] State.reset =
      some ((0x2#4, 0x00000000#32), .gen) ∧
    afterEvents (fun t => (errors t, t.dinFill)) [.write 4 0x020#10 0x00000005#32] State.reset =
      some ((0x2#4, 0x00000020#32), 0b0000#4) ∧
    afterEvents (fun t => (errors t, t.replies)) [.read 1 0x004#10] State.reset =
      some ((0x8#4, 0x00000004#32), [0x00000000#32]) := by decide +kernel

/-- V-BUS: accesses after GEN. -/
theorem test_accesses_after_gen :
    afterEvents errors [.write 4 0x022#10 0x00000001#32] ready = some (0x8#4, 0x00000022#32) ∧
    afterEvents errors [.write 4 0x004#10 0x00000000#32] ready = some (0x8#4, 0x00000004#32) ∧
    afterEvents (fun t => (errors t, t.replies)) [.read 4 0x040#10, .read 4 0x250#10] ready =
      some ((0x0#4, 0x00000000#32), [0xED00D153#32, 0x00000000#32]) := by decide +kernel

/-- R71's example of byte lanes, through `DIN` writes and reads; P1's STATUS. -/
theorem test_din_lanes :
    afterEvents (fun t => (t.din[1], t.statusWord, t.readReg (.din 3)))
      [.write 4 0x020#10 0x33221100#32, .write 4 0x024#10 0x77665544#32, .write 4 0x028#10 0xBBAA9988#32,
       .write 4 0x02C#10 0xFFEEDDCC#32] ready = some (0x11#8, 0x000000F2#32, 0xFFEEDDCC#32) := by decide +kernel

/-- V-BUS, the stale read: while LDKEY is pending STATUS reads 0xF3 and RK4 its old value. -/
theorem test_stale_read :
    afterEvents State.replies [.write 4 0x000#10 0x00000001#32, .read 4 0x004#10, .read 4 0x110#10, .engine, .read 4 0x110#10]
      (loaded key) = some [0xFD74AAD6#32, 0x00000000#32, 0x000000F3#32] := by decide +kernel

/-- R245, R246: with an error recorded a CMD write is discarded; an ERR write clears it. -/
theorem test_error_blocks_until_cleared :
    afterEvents (fun t => (t.pend, errors t)) [.write 4 0x000#10 0x00000000#32] { ready with err := 0x3#4, errInfo := 0x00000002#32 } =
      some (.none, 0x3#4, 0x00000002#32) ∧
    afterEvents errors [.write 4 0x008#10 0xFFFFFFFF#32] { ready with err := 0x3#4, errInfo := 0x00000002#32 } =
      some (0x0#4, 0x00000000#32) := by decide +kernel

/-- Log 8: the word placed is the word the very next step runs, from reset and after GEN. -/
theorem test_withFetchWord :
    (State.reset.withFetchWord 32 0x00835712).pend = .cmd 0x00835712#32 ∧
    (match step (State.reset.withFetchWord 32 0x00835712) with
      | .next t => some t.res
      | .fault _ => none
      | .refused _ => none) = some 0xC1#8 := by decide +kernel

/-- P1's `wait`: it loops while BUSY and leaves when not. -/
theorem test_wait :
    (System.hostTurn (System.hostTurn ⟨⟨expandProgram 0 [.wait 7], 0, []⟩, State.reset⟩)).host.next = 0 ∧
    (System.hostTurn (System.hostTurn ⟨⟨expandProgram 0 [.wait 7], 0, []⟩, ready⟩)).host.next = 2 := by decide +kernel

/-- R111 with R10: the words of `wrblk 0x3F4` go to 0x3F4, 0x3F8, 0x3FC and 0x400, the last outside the window. -/
theorem test_wrblk_leaves_the_window :
    HostPseudo.expand 0 (.wrblk 0x3F4 key) =
      [.wr 0x3F4 0x03020100#32, .wr 0x3F8 0x07060504#32, .wr 0x3FC 0x0B0A0908#32, .wr 0x400 0x0F0E0D0C#32] ∧
    (ready.memWrite 0x400 0x0F0E0D0C#32).pend = .none := by decide +kernel

/-- P1: `wrblk DIN0` then `rdblk DIN0 -> x` reads the same block back. -/
theorem test_rdblk_block :
    (match System.run (List.replicate 8 .host) ⟨⟨expandProgram 0 [.wrblk 0x020 plain, .rdblk 0x020 5], 0, []⟩, ready⟩ with
      | .next y => some (y.host.blockAt 5)
      | .fault _ => none
      | .refused _ => none) = some plain := by decide +kernel

/-! ## Cases that meet the hypotheses of the obligations

One theorem for each obligation with hypotheses, `witness_<name>`; an obligation that is not listed has none. -/

/-- The event list of most cases. -/
def someEvents : List Event := [.read 4 0x004#10, .write 4 0x020#10 0x00000005#32]

theorem ready_inv : ready.Inv where
  noFillBeforeGen := by decide
  validIffGenDone := by decide
  sboxZero := by decide
  sboxIsTable := fun _ => rfl
  rkZero := fun _ => rfl
  rkIsSchedule := by decide
  noErrNoInfo := fun _ => rfl
  errDefined := by decide
  keyAfterGen := by decide

theorem reset_inv : State.reset.Inv where
  noFillBeforeGen := fun _ => rfl
  validIffGenDone := by decide
  sboxZero := fun _ => rfl
  sboxIsTable := by decide
  rkZero := fun _ => rfl
  rkIsSchedule := by decide
  noErrNoInfo := fun _ => rfl
  errDefined := by decide
  keyAfterGen := by decide

/-- Every case of the step: no event, each kind of event, and a decoded command with either turn of the ENGINE. -/
theorem witness_StepRunsOneEvent :
    State.reset.inbox = [] ∧ (State.reset.setInbox [.engine]).inbox = [.engine] ∧
    (State.reset.setInbox [.write 4 0x3FC#10 0xFFFFFFFF#32]).inbox = [.write 4 0x3FC#10 0xFFFFFFFF#32] ∧
    (State.reset.setInbox [.read 1 0x3FF#10]).inbox = [.read 1 0x3FF#10] ∧
    ((ready.accept 0x00000B24#32).pend = .cmd 0x00000B24#32 ∧ decode 0x00000B24#32 = .ok (.addrk 11) ∧
      (ready.accept 0x00000B24#32).inbox = []) ∧
    (((ready.accept 0x00000B24#32).setInbox [.engine]).pend = .cmd 0x00000B24#32 ∧
      ((ready.accept 0x00000B24#32).setInbox [.engine]).inbox = [.engine]) := by decide

/-- A state just reset, and a step that resets a keyed engine. -/
theorem witness_ResetSetsEveryElement :
    ∃ (s u : State) (es : List Event), (s = State.reset ∨ (∃ v : State, v.inbox = .reset :: es ∧ step v = .next s)) ∧
      u.inbox = .reset :: es ∧ step u = .next s :=
  ⟨State.reset, keyed.setInbox [.reset], [], .inl rfl, rfl, rfl⟩

/-- GEN pending without and with an error recorded; the first and the last DIN offset. -/
theorem witness_FirstEngineStepAfterReset :
    (State.reset.Inv ∧ State.reset.pend = .gen ∧ State.reset.err = 0#4) ∧
    ((State.reset.raise .busy 0x00000000#32).Inv ∧ (State.reset.raise .busy 0x00000000#32).pend = .gen ∧
      (State.reset.raise .busy 0x00000000#32).err ≠ 0#4) ∧
    (0x020#10).toNat = 0x020 + 4 * (0 : Fin 4).val ∧ (0x02C#10).toNat = 0x020 + 4 * (3 : Fin 4).val :=
  ⟨⟨reset_inv, rfl, rfl⟩,
   ⟨{ reset_inv with noErrNoInfo := by decide, errDefined := by decide }, rfl, by decide⟩, by decide, by decide⟩

theorem witness_StepKeepsStateInvariant :
    ∃ s t : State, s.Inv ∧ step s = .next t ∧ s.pend ≠ .none :=
  ⟨State.reset, State.reset.gen, reset_inv, rfl, by decide⟩

theorem witness_ReachableStatesSatisfyInvariant : ∃ s : State, Reachable s ∧ s.inbox = someEvents :=
  ⟨_, .reset someEvents, rfl⟩

/-- An ENGINE step, a write and a read, each with an element it does not write. -/
theorem witness_EventsWriteOnlyTheirElements :
    (∃ (s t : State), applyEvent .engine s = .next t ∧ Element.rk ∉ Event.mayWrite .engine s ∧ t.pend ≠ s.pend) ∧
    (∃ (s t : State), applyEvent (.write 4 0x020#10 5#32) s = .next t ∧
      Element.dout ∉ Event.mayWrite (.write 4 0x020#10 5#32) s ∧ t.dinFill ≠ s.dinFill) ∧
    (∃ (s t : State), applyEvent (.read 2 0x004#10) s = .next t ∧
      Element.pend ∉ Event.mayWrite (.read 2 0x004#10) s ∧ t.err ≠ s.err) :=
  ⟨⟨ready.accept 0x00000000#32, ready, rfl, by decide, by decide⟩,
   ⟨ready, ready.write 4 0x020#10 5#32, rfl, by decide, by decide⟩,
   ⟨ready, (ready.readEffect 2 0x004#10).reply (ready.readValue 2 0x004#10), rfl, by decide, by decide⟩⟩

theorem witness_PendingOperationCompletes :
    State.reset.pend ≠ .none ∧
    ∃ (e : Event) (s t : State), e.isAccess = true ∧ s.pend ≠ .none ∧ applyEvent e s = .next t :=
  ⟨by decide, .write 4 0x000#10 0#32, State.reset, _, rfl, by decide, rfl⟩

theorem witness_SboxFixedAfterGen :
    ∃ s t : State, s.Inv ∧ s.sboxValid = true ∧ step s = .next t ∧ s.inbox.head? ≠ some .reset :=
  ⟨ready, ready, ready_inv, rfl, rfl, by decide⟩

/-- A session that goes on, one that CLRKEY ends, one that reset ends. -/
theorem witness_KeyFixedWithinSession :
    ∀ s ∈ [keyed.accept 0x00000002#32, keyed.accept 0x00000003#32, keyed.setInbox [.reset]],
      s.keyValid = true ∧ ∃ t : State, step s = .next t := by
  intro s hs
  simp only [List.mem_cons, List.not_mem_nil, or_false] at hs
  obtain rfl | rfl | rfl := hs
  · exact ⟨rfl, _, rfl⟩
  · exact ⟨rfl, _, rfl⟩
  · exact ⟨rfl, _, rfl⟩

theorem witness_BusLanesLittleEndian : (loaded plain).din = plain ∧ keyed.rk = expand sboxTable key := ⟨rfl, rfl⟩

/-- Every clause of the register map at the ends of its range. -/
theorem witness_HostReadsReturnRegisterMap :
    (0x000#10).toNat % 4 = 0 ∧ (0x004#10).toNat % 4 = 0 ∧ (0x008#10).toNat % 4 = 0 ∧ (0x00C#10).toNat % 4 = 0 ∧
    (0x010#10).toNat % 4 = 0 ∧ (0x014#10).toNat % 4 = 0 ∧
    (0x020#10).toNat = 0x020 + 4 * (0 : Fin 4).val ∧ (0x02C#10).toNat = 0x020 + 4 * (3 : Fin 4).val ∧
    (0x030#10).toNat = 0x030 + 4 * (0 : Fin 4).val ∧ (0x03C#10).toNat = 0x030 + 4 * (3 : Fin 4).val ∧
    (0x100#10).toNat = 0x100 + 4 * (0 : Fin 44).val ∧ (0x1AC#10).toNat = 0x100 + 4 * (43 : Fin 44).val ∧
    (0x200#10).toNat = 0x200 + 4 * (0 : Fin 64).val ∧ (0x2FC#10).toNat = 0x200 + 4 * (63 : Fin 64).val ∧
    (∀ off ∈ [0x018#10, 0x01C#10, 0x040#10, 0x0FC#10, 0x1B0#10, 0x1FC#10, 0x300#10, 0x3FC#10],
      off.toNat % 4 = 0 ∧ ((0x018 ≤ off.toNat ∧ off.toNat < 0x020) ∨ (0x040 ≤ off.toNat ∧ off.toNat < 0x100) ∨
        (0x1B0 ≤ off.toNat ∧ off.toNat < 0x200) ∨ 0x300 ≤ off.toNat)) := by decide

/-- No aligned offset falls under two clauses of the register map. -/
theorem test_register_map_clauses_are_disjoint :
    ∀ q : Fin 256, ((decide (q.val < 6)).toNat + (decide (8 ≤ q.val ∧ q.val < 12)).toNat +
      (decide (12 ≤ q.val ∧ q.val < 16)).toNat + (decide (0x40 ≤ q.val ∧ q.val < 0x6C)).toNat +
      (decide (0x80 ≤ q.val ∧ q.val < 0xC0)).toNat + (decide ((6 ≤ q.val ∧ q.val < 8) ∨ (0x10 ≤ q.val ∧ q.val < 0x40) ∨
        (0x6C ≤ q.val ∧ q.val < 0x80) ∨ 0xC0 ≤ q.val)).toNat) = 1 := by decide +kernel

/-- A DIN write while busy and while idle, and the offsets next to the writable ones. -/
theorem witness_HostWriteCases :
    State.reset.pend ≠ .none ∧ ready.pend = .none ∧
    (0x020#10).toNat = 0x020 + 4 * (0 : Fin 4).val ∧ (0x02C#10).toNat = 0x020 + 4 * (3 : Fin 4).val ∧
    (∀ off ∈ [0x004#10, 0x00C#10, 0x01C#10, 0x030#10, 0x100#10, 0x3FC#10],
      off.toNat % 4 = 0 ∧ off ≠ 0x000#10 ∧ off ≠ 0x008#10 ∧ ∀ k : Fin 4, off.toNat ≠ 0x020 + 4 * k.val) := by decide

/-- Other sizes at an aligned offset, and four bytes at each misaligned one. -/
theorem witness_UndefinedAccessesRaiseAccess :
    (∀ size ∈ [0, 1, 2, 3, 5, 8, 16], size ≠ 4 ∨ (0x000#10).toNat % 4 ≠ 0) ∧
    (∀ off ∈ [0x001#10, 0x002#10, 0x003#10, 0x3FD#10, 0x3FF#10], 4 ≠ 4 ∨ off.toNat % 4 ≠ 0) := by decide

theorem witness_StaleReadsWhileBusy :
    (∀ e ∈ someEvents, e.isAccess = true) ∧ State.reset.pend ≠ .none ∧
    (State.reset.setInbox (someEvents ++ [.engine])).inbox = someEvents ++ [.engine] := by decide

theorem witness_DecodeOfEncode :
    ∀ i ∈ [Instr.addrk 0, .addrk 15, .gmul 0x00#8 0xFF#8, .gmul 0xFF#8 0x00#8, .stst], i.wellFormed = true := by decide

theorem witness_EncodeOfDecode :
    decode 0x00000F24#32 = .ok (.addrk 15) ∧ decode 0x00FF0012#32 = .ok (.gmul 0x00#8 0xFF#8) ∧
    decode 0x00000000#32 = .ok .nop := by decide

theorem witness_WordsDecodeByOneTableRow :
    ∃ (w : Word32) (i : Instr) (r : OpcodeRow), decode w = .ok i ∧ r ∈ opcodeRows ∧ w &&& r.mask = r.matchBits :=
  ⟨0x00005710#32, .gmul2 0x57#8, ⟨"GMUL2", 0x00000010#32, 0xFFFF00FF#32⟩, by decide, by decide, by decide⟩

theorem witness_IllegalWordsRaise :
    (ready.accept 0x00001024#32).pend = .cmd 0x00001024#32 ∧
    ∀ r ∈ opcodeRows, 0x00001024#32 &&& r.mask ≠ r.matchBits := by decide

theorem witness_AssemblerLines : 255 < 256 := by decide

theorem witness_GmulFieldLaws : 0x01#8 ≠ 0x00#8 ∧ 0xFF#8 ≠ 0x00#8 := by decide

/-- An accepted command is pending. -/
theorem pending_of_accept (c : Byte) (s : State) (ws : List Word32) (h : ws.map opField = ws.map fun _ => c) :
    ∀ w ∈ ws, (s.accept w).pend = .cmd w ∧ opField w = c := fun w hw => ⟨rfl, List.map_inj_left.mp h w hw⟩

theorem witness_Gmul2Command :
    ∀ w ∈ [0x00008010#32, 0x10000010#32], (ready.accept w).pend = .cmd w ∧ opField w = 0x10#8 :=
  pending_of_accept _ _ _ (by decide)
theorem witness_Gmul3Command :
    ∀ w ∈ [0x00005711#32, 0x00015711#32], (ready.accept w).pend = .cmd w ∧ opField w = 0x11#8 :=
  pending_of_accept _ _ _ (by decide)
theorem witness_GmulCommand :
    ∀ w ∈ [0x00835712#32, 0x01835712#32], (ready.accept w).pend = .cmd w ∧ opField w = 0x12#8 :=
  pending_of_accept _ _ _ (by decide)

theorem witness_RotationAndAffine : ∀ n ∈ [1, 7], 1 ≤ n ∧ n ≤ 7 := by decide +kernel

theorem witness_GenFillsSboxTable : State.reset.pend = .gen := rfl

theorem witness_WalkVisitsEveryNonzeroByte : 0x01#8 ≠ 0x00#8 ∧ 0xFF#8 ≠ 0x00#8 ∧ 255 ≤ 255 ∧ 255 ≤ 256 := by decide +kernel

theorem witness_SboxClosedForm :
    ((0x00#8 = 0x00#8 ∧ 0x00#8 = 0x00#8) ∨ gmul 0x00#8 0x00#8 = 0x01#8) ∧
    ((0x53#8 = 0x00#8 ∧ 0xCA#8 = 0x00#8) ∨ gmul 0x53#8 0xCA#8 = 0x01#8) := by decide +kernel

theorem witness_SboxTableProperties : sboxAt sboxTable 0x53#8 = sboxAt sboxTable 0x53#8 := rfl

/-- The invariant holds in a state with a command pending. -/
theorem witness_SboxluCommand :
    (∀ w ∈ [0x00005313#32, 0x00015313#32], (ready.accept w).pend = .cmd w ∧ opField w = 0x13#8) ∧
    ∃ (w : Word32) (s : State), s.Inv ∧ s.pend = .cmd w := by
  refine ⟨pending_of_accept _ _ _ (by decide), 0x00005313#32, ready.accept 0x00005313#32, ?_, rfl⟩
  exact { ready_inv with validIffGenDone := by decide, noFillBeforeGen := by decide }

theorem witness_KeyScheduleOperations : ∀ i ∈ [0, 8], i < 9 := by decide +kernel

/-- The ends of each case of the recurrence. -/
theorem witness_KeyWordRecurrence :
    (∀ m ∈ [0, 3], m < 44 ∧ m < 4) ∧ (∀ m ∈ [4, 40], m < 44 ∧ 4 ≤ m ∧ m % 4 = 0) ∧
    (∀ m ∈ [5, 43], m < 44 ∧ 4 ≤ m ∧ m % 4 ≠ 0) := by decide +kernel

/-- LDKEY that completes, and each check that fails. -/
theorem witness_LdkeyCommand :
    (loaded key).keyValid = false ∧ (loaded key).dinFill = 0b1111#4 ∧
    (∀ w ∈ [0x00000001#32, 0x0000FF01#32], ((loaded key).accept w).pend = .cmd w ∧ opField w = 0x01#8) ∧
    keyed.keyValid = true ∧ ready.dinFill ≠ 0b1111#4 :=
  ⟨rfl, rfl, pending_of_accept _ _ _ (by decide), rfl, by decide⟩

theorem witness_ClrkeyCommand :
    keyed.sboxValid = true ∧ keyed.err = 0#4 ∧
    (∀ w ∈ [0x00000003#32, 0x00000103#32], (keyed.accept w).pend = .cmd w ∧ opField w = 0x03#8) :=
  ⟨rfl, rfl, pending_of_accept _ _ _ (by decide)⟩

theorem witness_AddRoundKeyRule :
    ∀ i : Fin 11, roundKey State.reset.rk i = Vector.replicate 16 0x00#8 := by decide +kernel

theorem witness_LdstCommand :
    (loaded plain).dinFill = 0b1111#4 ∧ ready.dinFill ≠ 0b1111#4 ∧
    (∀ w ∈ [0x00000020#32, 0x80000020#32], ((loaded plain).accept w).pend = .cmd w ∧ opField w = 0x20#8) :=
  ⟨rfl, by decide, pending_of_accept _ _ _ (by decide)⟩
theorem witness_SubbCommand :
    ∀ w ∈ [0x00000021#32, 0x80000021#32], (ready.accept w).pend = .cmd w ∧ opField w = 0x21#8 :=
  pending_of_accept _ _ _ (by decide)
theorem witness_ShrowCommand :
    ∀ w ∈ [0x00000022#32, 0x80000022#32], (ready.accept w).pend = .cmd w ∧ opField w = 0x22#8 :=
  pending_of_accept _ _ _ (by decide)
theorem witness_MixcolCommand :
    ∀ w ∈ [0x00000023#32, 0x80000023#32], (ready.accept w).pend = .cmd w ∧ opField w = 0x23#8 :=
  pending_of_accept _ _ _ (by decide)

/-- The round keys 0 and 10, then each check that fails: bit 12 set, N = 11 and 15, no key. -/
theorem witness_AddrkCommand :
    keyed.keyValid = true ∧ ready.keyValid = false ∧
    (∀ w ∈ [0x00000024#32, 0x00000A24#32, 0x00000B24#32, 0x00000F24#32, 0x00001024#32],
      (keyed.accept w).pend = .cmd w ∧ opField w = 0x24#8) ∧
    (∀ w ∈ [0x00000024#32, 0x00000A24#32], w.extractLsb' 12 20 = 0#20 ∧ (w.extractLsb' 8 4).toNat ≤ 10) ∧
    ((0x00000A24#32).extractLsb' 8 4).toNat = (10 : Fin 11).val ∧
    (∀ w ∈ [0x00000B24#32, 0x00000F24#32], w.extractLsb' 12 20 = 0#20 ∧ 10 < (w.extractLsb' 8 4).toNat) ∧
    (0x00001024#32).extractLsb' 12 20 ≠ 0#20 :=
  ⟨rfl, rfl, pending_of_accept _ _ _ (by decide), by simp, by decide, by simp, by decide⟩

theorem witness_StstCommand :
    (∀ w ∈ [0x00000025#32, 0x80000025#32], (ready.accept w).pend = .cmd w ∧ opField w = 0x25#8) ∧
    { ready with state := roundOne }.state = roundOne :=
  ⟨pending_of_accept _ _ _ (by decide), rfl⟩

theorem witness_CipherRounds : ∀ r ∈ [(1 : Fin 11), 9], 1 ≤ r.val ∧ r.val ≤ 9 := by decide +kernel

theorem witness_EncCommand :
    keyed.keyValid = true ∧ keyed.dinFill = 0b1111#4 ∧ ready.keyValid = false ∧
    { keyed with dinFill := 0b0111#4 }.dinFill ≠ 0b1111#4 ∧
    (∀ w ∈ [0x00000002#32, 0x01000002#32], (keyed.accept w).pend = .cmd w ∧ opField w = 0x02#8) :=
  ⟨rfl, rfl, rfl, by decide, pending_of_accept _ _ _ (by decide)⟩

theorem witness_NopCommand :
    ∀ w ∈ [0x00000000#32, 0x00000100#32], (ready.accept w).pend = .cmd w ∧ opField w = 0x00#8 :=
  pending_of_accept _ _ _ (by decide)

theorem witness_EncEqualsStepCommands : keyed.keyValid = true ∧ keyed.dinFill = 0b1111#4 ∧ keyed.err = 0#4 := by decide +kernel

/-- A recorded error, and a DIN write that comes after it. -/
theorem witness_FirstErrorIsKept :
    ready.err = 0#4 ∧
    ∃ s t : State, s.err ≠ 0#4 ∧ step s = .next t ∧ (∀ e : Event, s.inbox.head? = some e → e.clearsError = false) := by
  refine ⟨rfl, { ready with err := 0x3#4, inbox := [.write 4 0x020#10 5#32] }, _, by decide, rfl, ?_⟩
  rintro e ⟨⟩
  rfl

/-- Each check of R247 as the first that fails, and none. -/
theorem witness_CommandChecksInOrder :
    firstFailedCheck 0x00000004#32 (ready.accept 0x00000004#32) = some .illegal ∧
    firstFailedCheck 0x00000B24#32 (ready.accept 0x00000B24#32) = some .range ∧
    firstFailedCheck 0x00000001#32 (keyed.accept 0x00000001#32) = some .keyLocked ∧
    firstFailedCheck 0x00000002#32 (ready.accept 0x00000002#32) = some .noKey ∧
    firstFailedCheck 0x00000001#32 (ready.accept 0x00000001#32) = some .shortKey ∧
    firstFailedCheck 0x00000020#32 (ready.accept 0x00000020#32) = some .trunc ∧
    firstFailedCheck 0x00000002#32 (keyed.accept 0x00000002#32) = none := by decide +kernel

theorem witness_ErrorsBlockCommandsUntilCleared :
    ({ ready with err := 0x3#4 }.err ≠ 0#4 ∧ { ready with err := 0x3#4 }.pend = .none) ∧
    (0x020#10).toNat = 0x020 + 4 * (0 : Fin 4).val ∧ (0x02C#10).toNat = 0x020 + 4 * (3 : Fin 4).val ∧
    (2 ≠ 4 ∨ (0x000#10).toNat % 4 ≠ 0) ∧
    (∀ off ∈ [0x000#10, 0x010#10, 0x3FC#10], off.toNat % 4 = 0 ∧ off ≠ 0x004#10 ∧ off ≠ 0x008#10 ∧ off ≠ 0x00C#10) ∧
    (∃ t : State, exec .nop ready = .next t) ∧ 0x8#4 ≠ 0#4 :=
  ⟨by decide, by decide, by decide, by decide, by decide, ⟨_, rfl⟩, by decide⟩

/-- Two engines: an access to the window of the first is an event of the first and not of the second, and one above both
windows is no event. -/
theorem witness_EnginesAreIndependent :
    ∃ (p q : Platform) (a : BusAccess) (s t : State), p.access a = .next q ∧
      engineAt p.engines.length a.addr ≠ some 1 ∧ engineAt p.engines.length a.addr = some 0 ∧
      p.engines[0]? = some s ∧ applyEvent (a.toEvent 0) s = .next t ∧
      engineAt p.engines.length (Config.base 1 + 0x400) = none := by
  have h : engineAt 2 (Config.base 0) = some 0 := (engineAt_eq_some_iff 2 0 _).2 ⟨by decide, by simp [inWindow]⟩
  obtain ⟨q, hq⟩ := Platform.access_next ⟨[ready, ready]⟩ (.read 4 (Config.base 0))
  refine ⟨⟨[ready, ready]⟩, q, .read 4 (Config.base 0), ready, _, hq.1, ?_, h, rfl, rfl, ?_⟩
  · show engineAt 2 (Config.base 0) ≠ some 1
    rw [h]
    decide
  · cases he : engineAt 2 (Config.base 1 + 0x400) with
    | none => rfl
    | some k =>
      have hk := (engineAt_eq_some_iff _ _ _).1 he
      have hw := (inWindow_eq_true_iff _ _).1 hk.2
      have h01 := Config.base_add_le_base (j := 0) (k := 1) (by decide)
      obtain rfl | rfl : k = 0 ∨ k = 1 := by omega
      · omega
      · omega

theorem witness_WaitLoopFollowsBusy :
    ∃ (y : System) (pos t : Nat), y.host.next = pos ∧ y.host.program[pos]? = some (.rd 0x004 t) ∧
      y.host.program[pos + 1]? = some (.beq t 0x1#32 0x1#32 pos) :=
  ⟨⟨⟨.wr 0x000 0#32 :: waitOps 1 7, 1, []⟩, State.reset⟩, 1, 7, rfl, rfl, rfl⟩

end Sys2Proof.Machine.Tests
end

/-! # The fields of `STATUS`

Every bit of the status word as a field of the state (spec/10_state.md R46), and the status word that GEN leaves. -/

namespace Sys2Proof.Machine

/-! ## The bits of the status word -/

/-- STATUS with its flags appended one at a time, the form the library's bit lemmas speak of. -/
theorem State.statusWord_eq_concat (s : State) :
    s.statusWord =
      ((((0x000000#24 ++ s.dinFill).concat s.errFlag).concat s.keyValid).concat s.sboxValid).concat s.busy := rfl

/-- Every bit of STATUS: the four flags, and above them `DIN_FILL`, whose bits past its width are the zeros of bits
31:8. -/
theorem State.statusWord_getLsbD (s : State) (i : Nat) :
    s.statusWord.getLsbD i =
      if i = 0 then s.busy else if i = 1 then s.sboxValid else if i = 2 then s.keyValid else if i = 3 then s.errFlag
      else s.dinFill.getLsbD (i - 4) := by
  rw [State.statusWord_eq_concat, BitVec.getLsbD_concat, BitVec.getLsbD_concat, BitVec.getLsbD_concat,
    BitVec.getLsbD_concat, BitVec.getLsbD_append]
  match i with
  | 0 | 1 | 2 | 3 => rfl
  | n + 4 => simpa using BitVec.lt_of_getLsbD

theorem State.statusWord_getLsbD_four_add (s : State) (i : Nat) :
    s.statusWord.getLsbD (4 + i) = s.dinFill.getLsbD i := by
  rw [State.statusWord_getLsbD, if_neg (by omega), if_neg (by omega), if_neg (by omega), if_neg (by omega),
    Nat.add_sub_cancel_left]

@[simp] theorem State.statusWord_extractLsb'_fill (s : State) : s.statusWord.extractLsb' 4 4 = s.dinFill := by
  refine BitVec.eq_of_getLsbD_eq fun i hi => ?_
  rw [BitVec.getLsbD_extractLsb', State.statusWord_getLsbD_four_add, decide_eq_true hi, Bool.true_and]

@[simp] theorem State.statusWord_extractLsb'_upper (s : State) : s.statusWord.extractLsb' 8 24 = 0#24 := by
  refine BitVec.eq_of_getLsbD_eq fun i _ => ?_
  rw [BitVec.getLsbD_extractLsb', show 8 + i = 4 + (4 + i) by omega, State.statusWord_getLsbD_four_add,
    BitVec.getLsbD_of_ge s.dinFill _ (by omega), Bool.and_false, BitVec.getLsbD_zero]

/-! ## The flags as decided propositions -/

theorem State.busy_eq_decide (s : State) : s.busy = decide (s.pend ≠ .none) := by
  rw [Bool.eq_iff_iff, State.busy_eq_true, decide_eq_true_iff]

theorem State.errFlag_eq_decide (s : State) : s.errFlag = decide (s.err ≠ 0#4) := by
  rw [Bool.eq_iff_iff, State.errFlag_eq_true, decide_eq_true_iff]

/-! ## STATUS after GEN -/

/-- GEN sets SBOX_VALID, clears BUSY and leaves the other fields of STATUS (41_sbox.md R153), whatever table it
computes. -/
theorem State.statusWord_gen (s : State) :
    s.gen.statusWord =
      ((((0x000000#24 ++ s.dinFill).concat s.errFlag).concat s.keyValid).concat true).concat false := by
  simp [State.statusWord_eq_concat, State.busy, State.errFlag]

/-- Settles O12: each field is the bit lemma of its position, and the value after GEN needs nothing of the table GEN
computes. -/
theorem statusWordFields : Obligations.StatusWordFields := by
  refine ⟨fun s => ⟨?busy, s.statusWord_getLsbD 1, s.statusWord_getLsbD 2, ?errFlag, s.statusWord_extractLsb'_fill,
    s.statusWord_extractLsb'_upper⟩, ?reset, ?gen⟩
  case busy => exact (s.statusWord_getLsbD 0).trans s.busy_eq_decide
  case errFlag => exact (s.statusWord_getLsbD 3).trans s.errFlag_eq_decide
  case reset => decide
  case gen =>
    rw [State.statusWord_gen]
    decide

end Sys2Proof.Machine

/-! # Host accesses to the register window

The byte lanes of the array windows, which register an offset is, and what an access of each kind does
(spec/20_memory.md R71 to R75). -/

namespace Sys2Proof.Machine

/-! ## Byte lanes of the array windows (R71) -/

/-- Lane `j` of bus word `k` of an array is byte `4k + j` of it, for the DIN, DOUT, RK and SB windows alike. -/
theorem busWordAt_extractLsb' {n : Nat} (a : Vector Byte n) (k : Nat) (j : Fin 4) (h : 4 * k + 3 < n) :
    (busWordAt a k).extractLsb' (8 * j.val) 8 = a[4 * k + j.val]'(by omega) := by
  calc (busWordAt a k).extractLsb' (8 * j.val) 8
      = byteAt a (4 * k + j.val) := by
        refine (lane_laneWord (quadAt a (4 * k)) j).trans ?_
        match j with
        | 0 | 1 | 2 | 3 => rfl
    _ = a[4 * k + j.val]'(by omega) := byteAt_eq_getElem a _ (by omega)

/-- The loop leaves the words below `n` alone (42_key_schedule.md R173). -/
theorem quadAt_expandLoop_of_lt (t : SboxTable) (k n ri m : Nat) (w : Schedule) (hk : n + 4 * k ≤ 176)
    (hm : m + 3 < n) : quadAt (expandLoop t k n ri w) m = quadAt w m := by
  simp (disch := omega) only [quadAt, byteAt_expandLoop_of_lt]

/-- The first word of the schedule after the key is the one the loop's first turn writes (42_key_schedule.md R173). -/
theorem quadAt_expand_sixteen (t : SboxTable) (key : Block) :
    quadAt (expand t key) 16 = nextQuad t 16 0 (masterKeyBytes key) := by
  rw [expand, expandLoop_succ, quadAt_expandLoop_of_lt _ _ _ _ _ _ (by omega) (by omega),
    quadAt_putQuad_same _ _ _ (by omega)]

/-- Settles O13: the lane lemma at each window; the example words of RK need only the key and the loop's first turn. -/
theorem busLanesLittleEndian : Obligations.BusLanesLittleEndian := by
  refine ⟨fun s k j => ⟨busWordAt_extractLsb' s.din k j (by omega), busWordAt_extractLsb' s.dout k j (by omega)⟩,
    fun s m j => busWordAt_extractLsb' s.rk m j (by omega), fun s m j => busWordAt_extractLsb' s.sbox m j (by omega),
    fun s hdin => ?din, fun s hrk => ⟨?rk1, ?rk4⟩⟩
  case din =>
    simp only [State.readReg, hdin]
    decide
  case rk1 =>
    show laneWord (quadAt s.rk 4) = _
    rw [hrk, expand, quadAt_expandLoop_of_lt _ _ _ _ _ _ (by omega) (by omega)]
    decide +kernel
  case rk4 =>
    show laneWord (quadAt s.rk 16) = _
    rw [hrk, quadAt_expand_sixteen]
    decide +kernel

/-! ## Accesses that are not defined (R75) -/

theorem accessDefined_eq_false (size : Nat) (off : Offset) :
    accessDefined size off = false ↔ size ≠ 4 ∨ off.toNat % 4 ≠ 0 := by
  rw [← Bool.not_eq_true, accessDefined_eq_true, not_and_or]

theorem State.write_of_undefined (s : State) {size : Nat} {off : Offset} (v : Word32)
    (h : accessDefined size off = false) : s.write size off v = afterError s .access (offsetInfo off) := by
  rw [State.write, if_neg (Bool.eq_false_iff.1 h), State.raise_eq_afterError]

theorem State.readEffect_of_undefined (s : State) {size : Nat} {off : Offset} (h : accessDefined size off = false) :
    s.readEffect size off = afterError s .access (offsetInfo off) := by
  rw [State.readEffect, if_neg (Bool.eq_false_iff.1 h), State.raise_eq_afterError]

theorem State.readValue_of_undefined (s : State) {size : Nat} {off : Offset} (h : accessDefined size off = false) :
    s.readValue size off = 0x00000000#32 := by
  rw [State.readValue, if_neg (Bool.eq_false_iff.1 h)]

/-- Settles O16: what is not four aligned bytes fails the first check of every access (R248). -/
theorem undefinedAccessesRaiseAccess : Obligations.UndefinedAccessesRaiseAccess := by
  intro s size off v h
  have hd : accessDefined size off = false := (accessDefined_eq_false size off).2 h
  exact ⟨s.write_of_undefined v hd, s.readEffect_of_undefined hd, s.readValue_of_undefined hd⟩

/-! ## Aligned reads (R72, R74) -/

theorem State.readEffect_of_aligned (s : State) {off : Offset} (h : off.toNat % 4 = 0) : s.readEffect 4 off = s :=
  if_pos ((accessDefined_eq_true 4 off).2 ⟨rfl, h⟩)

theorem State.readValue_of_aligned (s : State) {off : Offset} (h : off.toNat % 4 = 0) :
    s.readValue 4 off = s.readReg (Reg.atOffset off) :=
  if_pos ((accessDefined_eq_true 4 off).2 ⟨rfl, h⟩)

/-- Settles O14: an aligned read is the read of the register at its offset, and the array windows then have the lane
lemma. -/
theorem hostReadsReturnRegisterMap : Obligations.HostReadsReturnRegisterMap := by
  intro s off h
  have hread : s.readValue 4 off = s.readReg (Reg.atOffset off) := s.readValue_of_aligned h
  refine ⟨s.readEffect_of_aligned h, ?cmd, ?status, ?err, ?errInfo, ?res, ?id, fun k j ho => ?din,
    fun k j ho => ?dout, fun m j ho => ?rk, fun m j ho => ?sb, fun ho => ?reserved⟩
  case cmd | status | err | errInfo | res | id => rintro rfl; exact hread
  case din =>
    rw [hread, Reg.atOffset_din off k ho]
    exact busWordAt_extractLsb' s.din k j (by omega)
  case dout =>
    rw [hread, Reg.atOffset_dout off k ho]
    exact busWordAt_extractLsb' s.dout k j (by omega)
  case rk =>
    rw [hread, Reg.atOffset_rk off m ho]
    exact busWordAt_extractLsb' s.rk m j (by omega)
  case sb =>
    rw [hread, Reg.atOffset_sb off m ho]
    exact busWordAt_extractLsb' s.sbox m j (by omega)
  case reserved => rw [hread, Reg.atOffset_reserved off ho]; rfl

/-! ## Aligned writes (R73) -/

theorem State.write_of_aligned (s : State) {off : Offset} (v : Word32) (h : off.toNat % 4 = 0) :
    s.write 4 off v = s.writeReg (Reg.atOffset off) off v :=
  if_pos ((accessDefined_eq_true 4 off).2 ⟨rfl, h⟩)

/-- A CMD write: discarded, BUSY, or accepted (R245), in that order. -/
theorem State.writeCmd_eq (s : State) (v : Word32) :
    s.writeCmd v =
      if s.err ≠ 0#4 then s else if s.pend ≠ .none then afterError s .busy 0x00000000#32 else s.accept v := by
  simp only [State.writeCmd, State.busy_eq_true, State.raise_eq_afterError]

theorem State.writeDinReg_of_busy (s : State) (k : Fin 4) (off : Offset) (v : Word32) (h : s.pend ≠ .none) :
    s.writeDinReg k off v = afterError s .busy (offsetInfo off) := by
  rw [State.writeDinReg, if_pos (s.busy_eq_true.2 h), State.raise_eq_afterError]

theorem State.writeDinReg_of_idle (s : State) (k : Fin 4) (off : Offset) (v : Word32) (h : s.pend = .none) :
    s.writeDinReg k off v = s.writeDin k v :=
  if_neg (by rw [State.busy_eq_true]; exact not_not_intro h)

/-- Of the four bytes a DIN write puts, byte `j` is lane `j` of the word (R71). -/
theorem putQuad_quadOfWord_getElem {n : Nat} (a : Vector Byte n) (k : Nat) (v : Word32) (j : Fin 4) (h : k + 3 < n) :
    (putQuad a k (quadOfWord v))[k + j.val]'(by omega) = v.extractLsb' (8 * j.val) 8 := by
  rw [← byteAt_eq_getElem, byteAt_putQuad _ _ _ _ h]
  match j with
  | 0 | 1 | 2 | 3 => simp [quadOfWord, lane]

theorem putQuad_getElem_of_disjoint {n : Nat} (a : Vector Byte n) (k m : Nat) (q : Quad) (h : k + 3 < n) (hm : m < n)
    (hd : m < k ∨ k + 3 < m) : (putQuad a k q)[m] = a[m] := by
  rw [← byteAt_eq_getElem, byteAt_putQuad _ _ _ _ h, if_neg (by omega), if_neg (by omega), if_neg (by omega),
    if_neg (by omega), byteAt_eq_getElem a m hm]

/-- A write to an offset of none of the writable registers raises ACCESS, whatever read-only register it names. -/
theorem State.writeReg_atOffset_of_readOnly (s : State) (off : Offset) (v : Word32) (h : off.toNat % 4 = 0)
    (hcmd : off ≠ 0x000#10) (herr : off ≠ 0x008#10) (hdin : ∀ k : Fin 4, off.toNat ≠ 0x020 + 4 * k.val) :
    s.writeReg (Reg.atOffset off) off v = afterError s .access (offsetInfo off) := by
  have hcmd' : off.toNat ≠ 0x000 := fun ho => hcmd (BitVec.eq_of_toNat_eq ho)
  have herr' : off.toNat ≠ 0x008 := fun ho => herr (BitVec.eq_of_toNat_eq ho)
  have hdin' : ¬ (0x020 ≤ off.toNat ∧ off.toNat < 0x030) := fun ho =>
    hdin ⟨(off.toNat - 0x020) / 4, by omega⟩ (by simp only; omega)
  rw [← State.raise_eq_afterError]
  unfold Reg.atOffset
  simp only [if_neg hcmd', if_neg herr', dif_neg hdin']
  repeat' split
  all_goals rfl

/-- Settles O15: an aligned write is the write of the register at its offset; a DIN word's bytes and fill bit are those
of `State.writeDin`. -/
theorem hostWriteCases : Obligations.HostWriteCases := by
  refine fun s off v => ⟨?cmd, ?err, fun k ho => ?din, fun h hcmd herr hdin => ?readOnly⟩
  case cmd => rintro rfl; exact s.writeCmd_eq v
  case err => rintro rfl; rfl
  case din =>
    have hwrite : s.write 4 off v = s.writeDinReg k off v := by
      rw [s.write_of_aligned v (by omega), Reg.atOffset_din off k ho]
      rfl
    refine ⟨fun hp => hwrite.trans (s.writeDinReg_of_busy k off v hp), fun hp =>
      ⟨(s.writeDin k v).din, (s.writeDin k v).dinFill, hwrite.trans (s.writeDinReg_of_idle k off v hp),
        fun j => putQuad_quadOfWord_getElem s.din (4 * k) v j (by omega), fun i hi => ?_,
        setFillBit_getLsbD s.dinFill k⟩⟩
    exact putQuad_getElem_of_disjoint s.din (4 * k) i (quadOfWord v) (by omega) i.isLt (by omega)
  case readOnly =>
    rw [s.write_of_aligned v h]
    exact s.writeReg_atOffset_of_readOnly off v h hcmd herr hdin

end Sys2Proof.Machine

/-! # Illegal command words

Every word that decodes has the pattern of a row of the opcode table (spec/30_encoding.md R104, R105), so a word of no
row raises ILLEGAL (R106). -/

namespace Sys2Proof

/-- The decode mask's part outside the must-be-zero bits reads OP (R102). -/
theorem and_opMask (w : Word32) : w &&& 0x000000FF#32 = (opField w).setWidth 32 := by
  have hmask : 0x000000FF#32 = (BitVec.allOnes 8).setWidth 32 := by decide
  rw [hmask]
  refine BitVec.eq_of_getLsbD_eq fun i hi => ?_
  simp only [opField, BitVec.getLsbD_and, BitVec.getLsbD_setWidth, BitVec.getLsbD_allOnes, BitVec.getLsbD_extractLsb',
    Nat.zero_add, hi, decide_true, Bool.true_and]
  exact Bool.and_comm _ _

/-- A decode mask is a must-be-zero mask OR 0x000000FF (R102): the two checks of R105 together are one row's pattern. -/
theorem and_decodeMask_of_zeroBits {w : Word32} {f : Format} (h : w &&& mustBeZeroMask f = 0#32) :
    w &&& (mustBeZeroMask f ||| 0x000000FF#32) = (opField w).setWidth 32 := by
  calc w &&& (mustBeZeroMask f ||| 0x000000FF#32)
      = w &&& mustBeZeroMask f ||| w &&& 0x000000FF#32 := BitVec.and_or_distrib_left
    _ = (opField w).setWidth 32 := by rw [h, and_opMask, BitVec.zero_or]

/-- Every command has its row: the decode mask of its format, and its opcode (R104). -/
theorem exists_opcodeRow (i : Instr) :
    ∃ r ∈ opcodeRows, r.mask = mustBeZeroMask i.format ||| 0x000000FF#32 ∧
      r.matchBits = (opField (encode i)).setWidth 32 := by
  cases i <;>
    simp only [encode, Instr.format, opField_wordF0, opField_wordFA, opField_wordFAB, opField_wordFN] <;>
    decide

/-- What a decoded word has passed: R105's check of OP and its check of the must-be-zero bits. -/
theorem opField_and_zeroBits_of_decode {w : Word32} {i : Instr} (h : decode w = .ok i) :
    opField w = opField (encode i) ∧ w &&& mustBeZeroMask i.format = 0#32 := by
  unfold decode at h
  split at h
  case h_15 => cases h
  all_goals
    rename_i hop
    obtain ⟨rfl, hzero⟩ := (checkZeroBits_eq_ok_iff w _ i).1 h
    exact ⟨BitVec.eq_of_toNat_eq (by simpa [encode] using hop), hzero⟩

/-- A word that decodes has a row's pattern (R105). -/
theorem exists_matching_row_of_decode {w : Word32} {i : Instr} (h : decode w = .ok i) :
    ∃ r ∈ opcodeRows, w &&& r.mask = r.matchBits := by
  obtain ⟨hop, hzero⟩ := opField_and_zeroBits_of_decode h
  obtain ⟨r, hr, hmask, hbits⟩ := exists_opcodeRow i
  exact ⟨r, hr, by rw [hmask, hbits, and_decodeMask_of_zeroBits hzero, hop]⟩

end Sys2Proof

namespace Sys2Proof.Machine

/-- A pending word that does not decode fails with ILLEGAL (R106). -/
theorem engineTurn_of_decode_error {s : State} {w : Word32} {r : DecodeReject} (hp : s.pend = .cmd w)
    (hd : decode w = .error r) : engineTurn s = .next (s.failCommand .illegal w) := by
  simp only [engineTurn, hp, hd]

/-- Settles O22: a word of no row does not decode, and the ENGINE step of such a word is ILLEGAL's. -/
theorem illegalWordsRaise : Obligations.IllegalWordsRaise := by
  refine ⟨fun s w hp hrows => ?raises, ?examples⟩
  case raises =>
    cases hd : decode w with
    | error r => rw [engineTurn_of_decode_error hp hd, State.failCommand_eq]
    | ok i =>
      obtain ⟨r, hr, hmatch⟩ := exists_matching_row_of_decode hd
      exact absurd hmatch (hrows r hr)
  case examples => simp [opcodeRows]

end Sys2Proof.Machine

/-! # Assembler lines

The assembler's words, OP with the shifted operands OR-ed in, are the encoder's concatenations of fields
(spec/30_encoding.md R102, R109). -/

namespace Sys2Proof

/-! ## Byte operands -/

/-- The numeral of a byte is accepted, and read back as that byte. -/
@[simp] theorem asmByte_toNat (a : Byte) : asmByte a.toNat = some a := by
  rw [asmByte, if_pos (by omega), BitVec.ofNat_toNat, BitVec.setWidth_eq]

theorem asmByte_of_gt {n : Nat} (h : 255 < n) : asmByte n = none := if_neg (by omega)

/-! ## Words -/

theorem wordFA_eq_or (a op : Byte) : wordFA a op = op.setWidth 32 ||| shiftedA a := by
  show (0x0000#16 ++ a ++ op : BitVec (16 + 8 + 8)) = _
  unfold shiftedA
  ext i hi
  grind

theorem wordFAB_eq_or (b a op : Byte) : wordFAB b a op = op.setWidth 32 ||| shiftedA a ||| shiftedB b := by
  show (0x00#8 ++ b ++ a ++ op : BitVec (8 + 8 + 8 + 8)) = _
  unfold shiftedA shiftedB
  ext i hi
  grind

theorem wordFN_eq_or {n : Nat} (op : Byte) (h : n < 16) : wordFN n op = op.setWidth 32 ||| shiftedN n := by
  have hn : BitVec.ofNat 32 n = (BitVec.ofNat 4 n).setWidth 32 := by
    refine BitVec.eq_of_toNat_eq ?_
    simp only [BitVec.toNat_ofNat, BitVec.toNat_setWidth]
    omega
  show (0x00000#20 ++ BitVec.ofNat 4 n ++ op : BitVec (20 + 4 + 8)) = _
  rw [shiftedN, hn]
  ext i hi
  grind

/-! ## Lines -/

/-- The line of a command stands for its word, unless it is an `addrk` above 10 (R109). -/
theorem assemble_asmLine (i : Instr) : assemble i.asmLine = if i.assemblable then some (encode i) else none := by
  cases i with
  | gmul2 a | gmul3 a | sboxlu a => simp [Instr.asmLine, assemble, Instr.assemblable, encode, wordFA_eq_or]
  | gmul a b => simp [Instr.asmLine, assemble, Instr.assemblable, encode, wordFAB_eq_or]
  | addrk n =>
    by_cases hn : n ≤ 10
    · simp [Instr.asmLine, assemble, Instr.assemblable, encode, wordFN_eq_or _ (show n < 16 by omega), hn]
    · simp [Instr.asmLine, assemble, Instr.assemblable, hn]
  | nop | ldkey | enc | clrkey | ldst | subb | shrow | mixcol | stst => rfl

/-- Settles O23: a line's word is the encoder's, and every byte operand above 255 stops the line it stands in. -/
theorem assemblerLines : Obligations.AssemblerLines := by
  refine ⟨assemble_asmLine, fun a ha => ?refused, fun v => rfl, rfl, rfl, rfl⟩
  simp [assemble, asmByte_of_gt ha]

end Sys2Proof

/-! # The field GF(2^8)

The product is linear in its left operand and commutes with doubling, and 0x01 is a left identity; since 0x01, XOR and
doubling make every byte, the other laws follow by induction on a byte (spec/40_gf_arith.md R131 to R134). -/

namespace Sys2Proof.Machine

/-! ## Doubling as a number (R131) -/

theorem getLsbD_seven (b : Byte) : b.getLsbD 7 = decide (128 ≤ b.toNat) := BitVec.msb_eq_decide b

theorem times2_toNat (b : Byte) :
    (times2 b).toNat = if b.toNat < 128 then 2 * b.toNat else (2 * b.toNat - 256) ^^^ 0x1B := by
  have hshift : (b <<< 1).toNat = 2 * b.toNat % 256 := by
    rw [BitVec.toNat_shiftLeft, Nat.shiftLeft_eq, pow_one, Nat.mul_comm]
  rw [times2, getLsbD_seven]
  by_cases h : b.toNat < 128
  · rw [if_neg (by simpa using h), if_pos h, hshift]
    omega
  · have hmod : 2 * b.toNat % 256 = 2 * b.toNat - 256 := by omega
    rw [if_pos (by simpa using h), if_neg h, BitVec.toNat_xor, hshift, hmod]
    rfl

/-- Settles O24: doubling as a number; tripling is its definition. -/
theorem times2Times3 : Obligations.Times2Times3 :=
  ⟨times2_toNat, fun _ => rfl, by decide⟩

/-! ## The multiplier's loop (R133) -/

/-- The loop from bit `i` on sums the doublings of the operand over the set bits it meets. -/
theorem gmulLoop_eq_foldl (k i : Nat) (a b r : Byte) :
    gmulLoop k i (times2^[i] a) b r =
      (List.range' i k).foldl (fun r j => if b.getLsbD j then r ^^^ times2^[j] a else r) r := by
  induction k generalizing i r with
  | zero => rfl
  | succ k ih => rw [gmulLoop, ← Function.iterate_succ_apply' times2, ih, List.range'_succ, List.foldl_cons]

theorem gmulLoop_xor (k i : Nat) (t u b r v : Byte) :
    gmulLoop k i (t ^^^ u) b (r ^^^ v) = gmulLoop k i t b r ^^^ gmulLoop k i u b v := by
  induction k generalizing i t u r v with
  | zero => rfl
  | succ k ih =>
    simp only [gmulLoop]
    rw [times2_xor, ← ih]
    split
    · ac_rfl
    · rfl

theorem gmulLoop_times2 (k i : Nat) (t b r : Byte) :
    gmulLoop k i (times2 t) b (times2 r) = times2 (gmulLoop k i t b r) := by
  induction k generalizing i t r with
  | zero => rfl
  | succ k ih => simp only [gmulLoop, ← ih, ← times2_xor, apply_ite times2]

/-- What holds of the loop's operand and of its sum, and is kept by XOR and by doubling, holds of its result. -/
theorem gmulLoop_induction {P : Byte → Prop} (xor : ∀ a b, P a → P b → P (a ^^^ b))
    (double : ∀ a, P a → P (times2 a)) (k i : Nat) (t b r : Byte) (ht : P t) (hr : P r) : P (gmulLoop k i t b r) := by
  induction k generalizing i t r with
  | zero => exact hr
  | succ k ih =>
    refine ih _ _ _ (double t ht) ?_
    split
    · exact xor r t hr ht
    · exact hr

/-! ## The base facts of the product -/

theorem gmul_xor_left (a b c : Byte) : gmul (a ^^^ b) c = gmul a c ^^^ gmul b c :=
  gmulLoop_xor 8 0 a b c 0x00#8 0x00#8

theorem gmul_times2_left (a b : Byte) : gmul (times2 a) b = times2 (gmul a b) := gmulLoop_times2 8 0 a b 0x00#8

/-- The doublings of 0x01 are the single bits of a byte, so their sum over its set bits is the byte. -/
@[simp] theorem gmul_one_left (b : Byte) : gmul 0x01#8 b = b := by
  revert b
  decide +kernel

/-- 0x01, XOR and doubling make every byte. -/
theorem byte_induction {P : Byte → Prop} (one : P 0x01#8) (xor : ∀ a b, P a → P b → P (a ^^^ b))
    (double : ∀ a, P a → P (times2 a)) (b : Byte) : P b := by
  have zero : P 0x00#8 := xor _ _ one one
  rw [← gmul_one_left b]
  exact gmulLoop_induction xor double 8 0 0x01#8 b 0x00#8 one zero

/-! ## The laws (R134) -/

theorem gmul_xor_right (a b c : Byte) : gmul a (b ^^^ c) = gmul a b ^^^ gmul a c := by
  induction a using byte_induction with
  | one => simp only [gmul_one_left]
  | xor x y hx hy =>
    simp only [gmul_xor_left, hx, hy]
    ac_rfl
  | double x hx => simp only [gmul_times2_left, hx, times2_xor]

theorem gmul_times2_right (a b : Byte) : gmul a (times2 b) = times2 (gmul a b) := by
  induction a using byte_induction with
  | one => simp only [gmul_one_left]
  | xor x y hx hy => simp only [gmul_xor_left, hx, hy, times2_xor]
  | double x hx => simp only [gmul_times2_left, hx]

@[simp] theorem gmul_one_right (a : Byte) : gmul a 0x01#8 = a := by
  induction a using byte_induction with
  | one => exact gmul_one_left _
  | xor x y hx hy => rw [gmul_xor_left, hx, hy]
  | double x hx => rw [gmul_times2_left, hx]

theorem gmul_comm (a b : Byte) : gmul a b = gmul b a := by
  induction b using byte_induction with
  | one => rw [gmul_one_left, gmul_one_right]
  | xor x y hx hy => rw [gmul_xor_left, gmul_xor_right, hx, hy]
  | double x hx => rw [gmul_times2_left, gmul_times2_right, hx]

theorem gmul_assoc (a b c : Byte) : gmul (gmul a b) c = gmul a (gmul b c) := by
  induction c using byte_induction with
  | one => simp only [gmul_one_right]
  | xor x y hx hy => simp only [gmul_xor_right, hx, hy]
  | double x hx => simp only [gmul_times2_right, hx]

@[simp] theorem gmul_zero_right (a : Byte) : gmul a 0x00#8 = 0x00#8 := by
  calc gmul a 0x00#8 = gmul a (0x00#8 ^^^ 0x00#8) := rfl
    _ = 0x00#8 := by rw [gmul_xor_right, BitVec.xor_self]

@[simp] theorem gmul_zero_left (b : Byte) : gmul 0x00#8 b = 0x00#8 := by
  rw [gmul_comm, gmul_zero_right]

theorem gmul_two (a : Byte) : gmul a 0x02#8 = times2 a := by
  calc gmul a 0x02#8 = gmul a (times2 0x01#8) := rfl
    _ = times2 a := by rw [gmul_times2_right, gmul_one_right]

theorem gmul_three (a : Byte) : gmul a 0x03#8 = times3 a := by
  calc gmul a 0x03#8 = gmul a (0x02#8 ^^^ 0x01#8) := rfl
    _ = times3 a := by rw [gmul_xor_right, gmul_two, gmul_one_right, times3]

/-- Settles O25: the loop as a fold from bit 0, and the laws at the operands 0x00 to 0x03. -/
theorem gmulSumsDoublings : Obligations.GmulSumsDoublings := by
  refine ⟨fun a b => ?fold, fun a => ⟨gmul_two a, gmul_three a, gmul_one_right a⟩,
    fun b => ⟨gmul_zero_left b, gmul_zero_right b, gmul_one_left b⟩, by decide⟩
  rw [List.range_eq_range']
  exact gmulLoop_eq_foldl 8 0 a b 0x00#8

/-! ## Powers of 0x03 (R134) -/

theorem gmul_times3_right (a b : Byte) : gmul a (times3 b) = times3 (gmul a b) := by
  rw [← gmul_three, ← gmul_three, gmul_assoc]

theorem gmul_iterate_times3_right (k : Nat) (a b : Byte) : gmul a (times3^[k] b) = times3^[k] (gmul a b) :=
  Function.Semiconj.iterate_right (f := gmul a) (gmul_times3_right a) k b

theorem gmul_three_inverse : gmul 0x03#8 0xF6#8 = 0x01#8 := by decide

/-- Multiplying by the inverse of 0x03 undoes tripling. -/
theorem gmul_times3_inverse (a : Byte) : gmul (times3 a) 0xF6#8 = a := by
  rw [← gmul_three, gmul_assoc, gmul_three_inverse, gmul_one_right]

theorem times3_ne_zero {a : Byte} (h : a ≠ 0x00#8) : times3 a ≠ 0x00#8 := fun h3 =>
  h (by rw [← gmul_times3_inverse a, h3, gmul_zero_left])

theorem iterate_times3_one_ne_zero (k : Nat) : times3^[k] 0x01#8 ≠ 0x00#8 := by
  induction k with
  | zero => decide
  | succ k ih =>
    rw [Function.iterate_succ_apply']
    exact times3_ne_zero ih

theorem iterate_times3_255 : times3^[255] 0x01#8 = 0x01#8 := by decide +kernel

/-- The order of 0x03 divides 255, and no proper divisor of 255 is a period. -/
theorem minimalPeriod_times3 : Function.minimalPeriod times3 0x01#8 = 255 := by
  have hdvd : Function.minimalPeriod times3 0x01#8 ∣ 255 := Function.IsPeriodicPt.minimalPeriod_dvd iterate_times3_255
  have hproper : ∀ d ∈ Nat.properDivisors 255, times3^[d] 0x01#8 ≠ 0x01#8 := by decide +kernel
  by_contra hne
  have hlt := lt_of_le_of_ne (Nat.le_of_dvd (by decide) hdvd) hne
  exact hproper _ (Nat.mem_properDivisors.2 ⟨hdvd, hlt⟩) Function.iterate_minimalPeriod

theorem iterate_times3_injOn : Set.InjOn (times3^[·] 0x01#8) (Finset.range 255) := by
  have h := Function.iterate_injOn_Iio_minimalPeriod (f := times3) (x := 0x01#8)
  rwa [minimalPeriod_times3, ← Finset.coe_range] at h

/-- 255 distinct powers of 0x03 are all of the 255 nonzero bytes. -/
theorem exists_iterate_times3_eq {a : Byte} (h : a ≠ 0x00#8) : ∃ k < 255, times3^[k] 0x01#8 = a := by
  have hmaps : Set.MapsTo (times3^[·] 0x01#8) (Finset.range 255) (Finset.univ.erase 0x00#8 : Finset Byte) :=
    fun k _ => by simpa using iterate_times3_one_ne_zero k
  have hcard : (Finset.univ.erase 0x00#8 : Finset Byte).card ≤ (Finset.range 255).card := by
    simp [← FinEnum.card_eq_fintypeCard]
  obtain ⟨k, hk, rfl⟩ := Finset.surjOn_of_injOn_of_card_le _ hmaps iterate_times3_injOn hcard (by simpa using h)
  exact ⟨k, by simpa using hk, rfl⟩

theorem existsUnique_iterate_times3_eq {a : Byte} (h : a ≠ 0x00#8) :
    ∃! k : Nat, k < 255 ∧ times3^[k] 0x01#8 = a := by
  obtain ⟨k, hk, rfl⟩ := exists_iterate_times3_eq h
  exact ⟨k, ⟨hk, rfl⟩, fun j hj => iterate_times3_injOn (by simpa using hj.1) (by simpa using hk) hj.2⟩

/-! ## Inverses (R134) -/

theorem eq_of_gmul_eq_one {a b c : Byte} (hb : gmul a b = 0x01#8) (hc : gmul a c = 0x01#8) : b = c := by
  calc b = gmul b (gmul a c) := by rw [hc, gmul_one_right]
    _ = gmul (gmul a b) c := by rw [← gmul_assoc, gmul_comm b a]
    _ = c := by rw [hb, gmul_one_left]

/-- The inverse of the power `k` of 0x03 is the power `255 - k`. -/
theorem existsUnique_gmul_eq_one {a : Byte} (h : a ≠ 0x00#8) : ∃! c : Byte, gmul a c = 0x01#8 := by
  obtain ⟨k, hk, rfl⟩ := exists_iterate_times3_eq h
  refine existsUnique_of_exists_of_unique ⟨times3^[255 - k] 0x01#8, ?_⟩ fun _ _ => eq_of_gmul_eq_one
  rw [gmul_iterate_times3_right, gmul_one_right, ← Function.iterate_add_apply, Nat.sub_add_cancel hk.le,
    iterate_times3_255]

/-- Settles O26: the laws above, with the powers of 0x03 for the inverses and for the generator. -/
theorem gmulFieldLaws : Obligations.GmulFieldLaws :=
  ⟨gmul_comm, gmul_assoc, gmul_one_right, gmul_zero_right, gmul_xor_right, fun _ => existsUnique_gmul_eq_one,
    fun _ => existsUnique_iterate_times3_eq, iterate_times3_255, gmul_three_inverse⟩

end Sys2Proof.Machine

/-! # The commands of the multiplier

A pending word whose OP selects a command performs it when its must-be-zero bits are zero, and raises ILLEGAL otherwise
(spec/30_encoding.md R105, spec/40_gf_arith.md R137 to R139). -/

namespace Sys2Proof.Machine

/-- The ENGINE step of a word whose OP selects the command `i`, which leaves `t`: `p` says that the must-be-zero bits of
`i`'s format are zero. -/
theorem engineTurn_of_checkZeroBits {s t : State} {w : Word32} {i : Instr} {p : Prop} [Decidable p]
    (hp : s.pend = .cmd w) (hd : decode w = checkZeroBits w i) (hz : w &&& mustBeZeroMask i.format = 0#32 ↔ p)
    (ht : exec i s = .next t) :
    engineTurn s = .next (if p then t else { afterError s .illegal w with pend := .none }) := by
  by_cases h : p
  · rw [if_pos h, ← ht]
    have hok : decode w = .ok i := by rw [hd, checkZeroBits, if_pos (hz.2 h)]
    simp only [engineTurn, hp, hok]
  · rw [if_neg h, ← State.failCommand_eq]
    exact engineTurn_of_decode_error hp (hd.trans (if_neg fun hw => h (hz.1 hw)))

theorem exec_gmul2 (a : Byte) (s : State) : exec (.gmul2 a) s = .next { s with res := times2 a, pend := .none } := rfl

theorem exec_gmul3 (a : Byte) (s : State) : exec (.gmul3 a) s = .next { s with res := times3 a, pend := .none } := rfl

theorem exec_gmul (a b : Byte) (s : State) : exec (.gmul a b) s = .next { s with res := gmul a b, pend := .none } := rfl

/-- Settles O27: the command writes RES and PEND, and format FA has bits 31:16 zero. -/
theorem gmul2Command : Obligations.Gmul2Command := by
  refine ⟨exec_gmul2, fun w s hp hop => ?word, by decide⟩
  have hd : decode w = checkZeroBits w (.gmul2 (aField w)) := by simp [decode, hop]
  exact engineTurn_of_checkZeroBits hp hd (and_mustBeZeroMask_eq_zero_iff w .fa) (exec_gmul2 (aField w) s)

/-- Settles O28: the command writes RES and PEND, and format FA has bits 31:16 zero. -/
theorem gmul3Command : Obligations.Gmul3Command := by
  refine ⟨exec_gmul3, fun w s hp hop => ?word, by decide⟩
  have hd : decode w = checkZeroBits w (.gmul3 (aField w)) := by simp [decode, hop]
  exact engineTurn_of_checkZeroBits hp hd (and_mustBeZeroMask_eq_zero_iff w .fa) (exec_gmul3 (aField w) s)

/-- Settles O29: the command writes RES and PEND, format FAB has bits 31:24 zero, and the corner cases are
field laws. -/
theorem gmulCommand : Obligations.GmulCommand := by
  refine ⟨exec_gmul, fun w s hp hop => ?word, by decide, by decide, gmul_three_inverse,
    fun a => ⟨gmul_zero_right a, gmul_zero_left a, gmul_one_right a⟩, gmul_comm⟩
  have hd : decode w = checkZeroBits w (.gmul (aField w) (bField w)) := by simp [decode, hop]
  exact engineTurn_of_checkZeroBits hp hd (and_mustBeZeroMask_eq_zero_iff w .fab) (exec_gmul (aField w) (bField w) s)

end Sys2Proof.Machine

/-! # The S-box

The rotation and the affine transform (spec/41_sbox.md R150, R151), the generator's walk through the powers of 0x03
(R153, R154), and the table it leaves: whatever the array held before, the entry at each byte is the affine transform of
the byte's field inverse (R155 to R157). -/

namespace Sys2Proof.Machine

/-! ## Rotation and affine transform (R150, R151) -/

theorem rotl8_eq_rotateLeft (x : Byte) {n : Nat} (h : n < 8) : rotl8 x n = x.rotateLeft n := by
  rw [BitVec.rotateLeft, Nat.mod_eq_of_lt h]
  rfl

theorem xformed_eq_rotateLeft (q : Byte) :
    xformed q = q ^^^ q.rotateLeft 1 ^^^ q.rotateLeft 2 ^^^ q.rotateLeft 3 ^^^ q.rotateLeft 4 := by
  rw [xformed, rotl8_eq_rotateLeft q (n := 1) (by decide), rotl8_eq_rotateLeft q (n := 2) (by decide),
    rotl8_eq_rotateLeft q (n := 3) (by decide), rotl8_eq_rotateLeft q (n := 4) (by decide)]

/-- Settles O30: below 8 the library's rotation amount is `n` itself; the affine transform is its definition. -/
theorem rotationAndAffine : Obligations.RotationAndAffine :=
  ⟨fun x _ _ hn => rotl8_eq_rotateLeft x (Nat.lt_succ_of_le hn), xformed_eq_rotateLeft, fun _ => rfl, by decide⟩

/-- As a polynomial in the rotation by 1, whose eighth power is the identity, `xformed` has fourth power 1. -/
theorem iterate_xformed_four (q : Byte) : xformed^[4] q = q := by
  revert q
  decide +kernel

/-- The inverse of the affine transform. -/
def invAffine (y : Byte) : Byte := xformed^[3] (y ^^^ 0x63#8)

theorem affine_invAffine (y : Byte) : affine (invAffine y) = y := by
  have hx : xformed (invAffine y) = y ^^^ 0x63#8 :=
    (Function.iterate_succ_apply' xformed 3 _).symm.trans (iterate_xformed_four _)
  rw [affine, hx, BitVec.xor_assoc, BitVec.xor_self, BitVec.xor_zero]

/-! ## The byte the affine transform is applied to (R155) -/

/-- `c = inv(v)` of R155: the field inverse of `v`, and 0 for 0. -/
def IsInverse (v c : Byte) : Prop := (v = 0x00#8 ∧ c = 0x00#8) ∨ gmul v c = 0x01#8

theorem ne_zero_of_gmul_eq_one {v c : Byte} (h : gmul v c = 0x01#8) : v ≠ 0x00#8 := by
  rintro rfl
  simp at h

theorem IsInverse.left_unique {u v c : Byte} (hu : IsInverse u c) (hv : IsInverse v c) : u = v := by
  obtain ⟨rfl, rfl⟩ | hu := hu <;> obtain ⟨rfl, hc⟩ | hv := hv
  · rfl
  · simp at hv
  · simp [hc] at hu
  · exact eq_of_gmul_eq_one ((gmul_comm c u).trans hu) ((gmul_comm c v).trans hv)

/-! ## The walk (R153, R154) -/

theorem sboxAt_setIfInBounds (t : SboxTable) (p v x : Byte) :
    sboxAt (t.setIfInBounds p.toNat x) v = if p = v then x else sboxAt t v := by
  simp only [sboxAt, Vector.getElem_setIfInBounds, BitVec.toNat_inj]

theorem walk_succ_of_last {p : Byte} (h : times3 p = 0x01#8) (fuel : Nat) (q : Byte) (t : SboxTable) :
    walk (fuel + 1) p q t = t.setIfInBounds p.toNat (affine q) := if_pos h

theorem walk_succ_of_not_last {p : Byte} (h : times3 p ≠ 0x01#8) (fuel : Nat) (q : Byte) (t : SboxTable) :
    walk (fuel + 1) p q t = walk fuel (times3 p) (gmul q inv3) (t.setIfInBounds p.toNat (affine q)) := if_neg h

/-- One body of the loop keeps the product of `p` and `q` (R154 (c)). -/
theorem gmul_times3_gmul_inv3 (p q : Byte) : gmul (times3 p) (gmul q inv3) = gmul p q := by
  calc gmul (times3 p) (gmul q inv3)
      = gmul (times3 (gmul p q)) inv3 := by rw [← gmul_assoc, gmul_comm _ q, gmul_times3_right, gmul_comm q p]
    _ = gmul p q := gmul_times3_inverse _

theorem gmul_iterate_times3_gmul_inv3 (k : Nat) :
    gmul (times3^[k] 0x01#8) ((fun q => gmul q inv3)^[k] 0x01#8) = 0x01#8 := by
  induction k with
  | zero => decide
  | succ k ih => rw [Function.iterate_succ_apply', Function.iterate_succ_apply', gmul_times3_gmul_inv3, ih]

/-- The loop has ended after `n + 1` bodies when `p` is then 1, so more fuel changes nothing. -/
theorem walk_eq_of_fuel {n fuel : Nat} {p : Byte} (hend : times3^[n + 1] p = 0x01#8) (hfuel : n < fuel) (q : Byte)
    (t : SboxTable) : walk fuel p q t = walk (n + 1) p q t := by
  induction n generalizing fuel p q t with
  | zero =>
    obtain ⟨fuel, rfl⟩ := Nat.exists_eq_add_one.2 hfuel
    rw [walk_succ_of_last hend, walk_succ_of_last hend]
  | succ n ih =>
    obtain ⟨fuel, rfl⟩ := Nat.exists_eq_add_one.2 (Nat.zero_lt_of_lt hfuel)
    by_cases hlast : times3 p = 0x01#8
    · rw [walk_succ_of_last hlast, walk_succ_of_last hlast]
    · rw [walk_succ_of_not_last hlast, walk_succ_of_not_last hlast]
      exact ih hend (Nat.lt_of_succ_lt_succ hfuel) _ _

/-- Before body 255 `p` does not come back to 1. -/
theorem iterate_times3_one_ne_one {k : Nat} (hpos : k ≠ 0) (h : k < 255) : times3^[k] 0x01#8 ≠ 0x01#8 :=
  Function.not_isPeriodicPt_of_pos_of_lt_minimalPeriod hpos (by rwa [minimalPeriod_times3])

theorem iterate_times3_254 : times3^[254] 0x01#8 = 0xF6#8 := by
  calc times3^[254] 0x01#8 = gmul (times3^[255] 0x01#8) 0xF6#8 := by
        rw [Function.iterate_succ_apply' times3 254, gmul_times3_inverse]
    _ = 0xF6#8 := by rw [iterate_times3_255, gmul_one_left]

theorem iterate_gmul_inv3_254 : (fun q => gmul q inv3)^[254] 0x01#8 = 0x03#8 := by
  have h := gmul_iterate_times3_gmul_inv3 254
  rw [iterate_times3_254] at h
  exact eq_of_gmul_eq_one h (by decide)

theorem iterate_gmul_inv3_255 : (fun q => gmul q inv3)^[255] 0x01#8 = 0x01#8 := by
  have h := gmul_iterate_times3_gmul_inv3 255
  rwa [iterate_times3_255, gmul_one_left] at h

/-- Settles O32: the walk goes through the powers of 0x03, and `q` is at every step the inverse of `p`. -/
theorem walkVisitsEveryNonzeroByte : Obligations.WalkVisitsEveryNonzeroByte := by
  refine ⟨gmul_iterate_times3_gmul_inv3, fun _ => existsUnique_iterate_times3_eq, iterate_times3_255,
    iterate_gmul_inv3_255, fun fuel t hfuel => walk_eq_of_fuel (n := 254) iterate_times3_255 hfuel _ t, by decide,
    by decide, by decide, by decide, by decide, by decide, by decide, iterate_times3_254, ?lastStore⟩
  rw [iterate_gmul_inv3_254]
  decide

/-! ## The table (R155 to R157) -/

section
variable {p q : Byte}

/-- A store of the walk at `v` writes what R155 says, so an entry that is as R155 says stays so. -/
theorem sboxAt_store_of_inverse (hpq : gmul p q = 0x01#8) {v c : Byte} (hvc : gmul v c = 0x01#8) {t : SboxTable}
    (h : p = v ∨ sboxAt t v = affine c) : sboxAt (t.setIfInBounds p.toNat (affine q)) v = affine c := by
  rw [sboxAt_setIfInBounds]
  split
  case isTrue hpv =>
    subst hpv
    rw [eq_of_gmul_eq_one hpq hvc]
  case isFalse hpv => exact h.resolve_left hpv

theorem sboxAt_walk_of_stored (hpq : gmul p q = 0x01#8) {v c : Byte} (hvc : gmul v c = 0x01#8) (fuel : Nat)
    {t : SboxTable} (h : sboxAt t v = affine c) : sboxAt (walk fuel p q t) v = affine c := by
  induction fuel generalizing p q t with
  | zero => exact h
  | succ fuel ih =>
    have hstore := sboxAt_store_of_inverse hpq hvc (.inr h)
    by_cases hlast : times3 p = 0x01#8
    · rwa [walk_succ_of_last hlast]
    · rw [walk_succ_of_not_last hlast]
      exact ih ((gmul_times3_gmul_inv3 p q).trans hpq) hstore

/-- The entry of a byte the walk visits: body `j` stores it, and no later body spoils it. -/
theorem sboxAt_walk_of_visited (hpq : gmul p q = 0x01#8) {c : Byte} {j fuel : Nat} (t : SboxTable) (hfuel : j < fuel)
    (hrun : ∀ i < j, times3^[i + 1] p ≠ 0x01#8) (hc : gmul (times3^[j] p) c = 0x01#8) :
    sboxAt (walk fuel p q t) (times3^[j] p) = affine c := by
  obtain ⟨fuel, rfl⟩ := Nat.exists_eq_add_one.2 (Nat.zero_lt_of_lt hfuel)
  have hpq' : gmul (times3 p) (gmul q inv3) = 0x01#8 := (gmul_times3_gmul_inv3 p q).trans hpq
  induction j generalizing p q t fuel with
  | zero =>
    have hstore := sboxAt_store_of_inverse (t := t) hpq hc (.inl rfl)
    by_cases hlast : times3 p = 0x01#8
    · rwa [walk_succ_of_last hlast]
    · rw [walk_succ_of_not_last hlast]
      exact sboxAt_walk_of_stored hpq' hc fuel hstore
  | succ j ih =>
    obtain ⟨fuel, rfl⟩ := Nat.exists_eq_add_one.2 (Nat.zero_lt_of_lt (Nat.lt_of_succ_lt_succ hfuel))
    rw [walk_succ_of_not_last (hrun 0 j.succ_pos)]
    exact ih hpq' _ (fun i hi => hrun (i + 1) (Nat.succ_lt_succ hi)) hc fuel (Nat.lt_of_succ_lt_succ hfuel)
      ((gmul_times3_gmul_inv3 _ _).trans hpq')

end

theorem sboxAt_generate (t : SboxTable) (v : Byte) :
    sboxAt (generate t) v = if 0x00#8 = v then 0x63#8 else sboxAt (walk 256 0x01#8 0x01#8 t) v :=
  sboxAt_setIfInBounds _ 0x00#8 v 0x63#8

/-- R155 for the table GEN leaves, whatever the array held before. -/
theorem sboxAt_generate_of_isInverse (t : SboxTable) {v c : Byte} (h : IsInverse v c) :
    sboxAt (generate t) v = affine c := by
  rw [sboxAt_generate]
  obtain ⟨rfl, rfl⟩ | hvc := h
  · rw [if_pos rfl]
    decide
  · have hv := ne_zero_of_gmul_eq_one hvc
    obtain ⟨j, hj, rfl⟩ := exists_iterate_times3_eq hv
    rw [if_neg hv.symm]
    exact sboxAt_walk_of_visited (gmul_one_left _) t (Nat.lt_succ_of_lt hj)
      (fun i hi => iterate_times3_one_ne_one i.succ_ne_zero (by omega)) hvc

theorem eq_of_sboxAt_eq {t u : SboxTable} (h : ∀ v, sboxAt t v = sboxAt u v) : t = u :=
  Vector.ext fun i hi => h (BitVec.ofNatLT i hi)

theorem sboxAt_sboxTable (v : Byte) : sboxAt sboxTable v = sboxBytes.getD v.toNat 0x00#8 := by
  simp only [sboxAt, sboxTable, Vector.getElem_ofFn]

/-- Each printed entry of R156, taken back through the affine transform, is the inverse of its index. -/
theorem isInverse_invAffine_sboxAt (v : Byte) : IsInverse v (invAffine (sboxAt sboxTable v)) := by
  rw [sboxAt_sboxTable]
  unfold IsInverse
  revert v
  decide +kernel

/-- The printed table is the generator's: both are as R155 says, and R155 leaves no entry open. -/
theorem generate_eq_sboxTable (t : SboxTable) : generate t = sboxTable := eq_of_sboxAt_eq fun v => by
  rw [sboxAt_generate_of_isInverse t (isInverse_invAffine_sboxAt v), affine_invAffine]

theorem State.gen_eq_sboxTable (s : State) :
    s.gen = { s with sbox := sboxTable, sboxValid := true, pend := .none } := by
  rw [State.gen_eq, generate_eq_sboxTable, State.installSbox, State.retire]

theorem engineTurn_of_gen {s : State} (h : s.pend = .gen) : engineTurn s = .next s.gen := by
  simp only [engineTurn, h]

/-- Settles O31: the ENGINE step is GEN, and the table it installs does not depend on the array before. -/
theorem genFillsSboxTable : Obligations.GenFillsSboxTable := fun s hp => by
  rw [engineTurn_of_gen hp, State.gen_eq_sboxTable]

theorem sboxAt_sboxTable_of_isInverse {v c : Byte} (h : IsInverse v c) : sboxAt sboxTable v = affine c := by
  rw [← generate_eq_sboxTable State.reset.sbox, sboxAt_generate_of_isInverse _ h]

/-- Settles O33: the closed form holds of every table GEN leaves, and that is the printed one. -/
theorem sboxClosedForm : Obligations.SboxClosedForm := fun _ _ => sboxAt_sboxTable_of_isInverse

theorem sboxAt_sboxTable_injective : Function.Injective (sboxAt sboxTable) := fun u v h => by
  have hu := isInverse_invAffine_sboxAt u
  rw [h] at hu
  exact hu.left_unique (isInverse_invAffine_sboxAt v)

/-- Settles O34: the table is injective, since an entry determines the inverse of its index; that it has no fixed point
is read off its bytes. -/
theorem sboxTableProperties : Obligations.SboxTableProperties := by
  refine ⟨sboxAt_sboxTable_injective, Finite.surjective_of_injective sboxAt_sboxTable_injective, ?_⟩
  simp only [sboxAt_sboxTable]
  decide +kernel

/-! ## SBOXLU (R159) -/

theorem exec_sboxlu (a : Byte) (s : State) :
    exec (.sboxlu a) s = .next { s with res := sboxAt s.sbox a, pend := .none } := rfl

/-- R158: once a command is pending, GEN is done (R50 (a)), so the table is that of R156 (R50 (b)). -/
theorem State.Inv.sbox_eq_of_cmd {s : State} (hinv : s.Inv) {w : Word32} (hp : s.pend = .cmd w) :
    s.sbox = sboxTable := by
  have hvalid : s.sboxValid ≠ false := fun h => by simp [hinv.validIffGenDone.1 h] at hp
  exact hinv.sboxIsTable (Bool.eq_true_of_not_eq_false hvalid)

/-- Settles O35: the command writes RES and PEND, format FA has bits 31:16 zero, and the table is the invariant's. -/
theorem sboxluCommand : Obligations.SboxluCommand := by
  refine ⟨exec_sboxlu, fun w s hp hop => ?word, fun _ _ hinv => hinv.sbox_eq_of_cmd, by decide, ?examples⟩
  case word =>
    have hd : decode w = checkZeroBits w (.sboxlu (aField w)) := by simp [decode, hop]
    exact engineTurn_of_checkZeroBits hp hd (and_mustBeZeroMask_eq_zero_iff w .fa) (exec_sboxlu (aField w) s)
  case examples =>
    simp only [sboxAt_sboxTable]
    decide

end Sys2Proof.Machine

/-! # The key schedule

The 4-byte words of the expanded key (spec/42_key_schedule.md R170 to R175), and the commands LDKEY and CLRKEY (R176,
R177). -/

namespace Sys2Proof

/-- A word with bits 31:8 zero is the encoding, in format F0, of its OP (30_encoding.md R102). -/
theorem eq_wordF0_of_upper_eq_zero {w : Word32} (h : w.extractLsb' 8 24 = 0#24) : w = wordF0 (opField w) := by
  refine BitVec.eq_of_getLsbD_eq fun i hi => ?_
  rw [wordF0, BitVec.getLsbD_append]
  by_cases hop : i < 8
  · simp [opField, hop]
  · have hbit : (w.extractLsb' 8 24).getLsbD (i - 8) = w.getLsbD i := by
      rw [BitVec.getLsbD_extractLsb', decide_eq_true (by omega), Bool.true_and, Nat.add_sub_cancel' (by omega)]
    rw [if_neg hop, ← hbit, h]

end Sys2Proof

namespace Sys2Proof.Machine

/-! ## Round constants, RotWord and SubWord (R170 to R172) -/

theorem rconAt_succ : ∀ i < 9, rconAt (i + 1) = times2 (rconAt i) := by decide

/-- Settles O36: the operations are as the rules write them, and the example bytes are entries of the printed table. -/
theorem keyScheduleOperations : Obligations.KeyScheduleOperations := by
  refine ⟨rfl, rconAt_succ, fun _ => rfl, fun _ _ => rfl, rfl, ?entries⟩
  simp only [subWord, sboxAt_sboxTable]
  decide

/-! ## The words of the expanded key (R173, R174) -/

theorem byteAt_masterKeyBytes (key : Block) {i : Nat} (h : i < 16) : byteAt (masterKeyBytes key) i = byteAt key i := by
  rw [byteAt_eq_getElem _ _ (by omega), byteAt_eq_getElem _ _ h, masterKeyBytes, Vector.getElem_ofFn, dif_pos h]

/-- The first sixteen bytes of the schedule are the key: the loop starts above them. -/
theorem byteAt_expand_of_lt (t : SboxTable) (key : Block) {i : Nat} (h : i < 16) :
    byteAt (expand t key) i = byteAt key i := by
  rw [expand, byteAt_expandLoop_of_lt _ _ _ _ _ _ (by omega) h, byteAt_masterKeyBytes key h]

/-- What a turn writes depends on the words one and four before it, and on the index of the round constant only where
that constant is used. -/
theorem nextQuad_congr {t : SboxTable} {n ri rj : Nat} {w v : Schedule} (hprev : quadAt w (n - 4) = quadAt v (n - 4))
    (hback : quadAt w (n - 16) = quadAt v (n - 16)) (hri : n % 16 = 0 → ri = rj) :
    nextQuad t n ri w = nextQuad t n rj v := by
  unfold nextQuad
  split
  case isTrue h => rw [hprev, hback, hri h]
  case isFalse => rw [hprev, hback]

/-- Every word the loop produces is what one turn computes from the finished schedule: the two words a turn reads are
never written again. When the loop is at word `m` it has used `(m + 3) / 4 - 1` round constants. -/
theorem quadAt_expandLoop_of_le (t : SboxTable) (k m j : Nat) (w : Schedule) (hm : 4 ≤ m) (hk : m + k ≤ 44)
    (hmj : m ≤ j) (hjk : j < m + k) :
    quadAt (expandLoop t k (4 * m) ((m + 3) / 4 - 1) w) (4 * j) =
      nextQuad t (4 * j) (j / 4 - 1) (expandLoop t k (4 * m) ((m + 3) / 4 - 1) w) := by
  induction k generalizing m w with
  | zero => omega
  | succ k ih =>
    have hri : (if 4 * m % 16 = 0 then (m + 3) / 4 - 1 + 1 else (m + 3) / 4 - 1) = (m + 1 + 3) / 4 - 1 := by
      split <;> omega
    obtain rfl | hlt : m = j ∨ m + 1 ≤ j := by omega
    · calc quadAt (expandLoop t (k + 1) (4 * m) ((m + 3) / 4 - 1) w) (4 * m)
          = nextQuad t (4 * m) ((m + 3) / 4 - 1) w := by
            rw [expandLoop_succ, quadAt_expandLoop_of_lt _ _ _ _ _ _ (by omega) (by omega),
              quadAt_putQuad_same _ _ _ (by omega)]
        _ = nextQuad t (4 * m) (m / 4 - 1) (expandLoop t (k + 1) (4 * m) ((m + 3) / 4 - 1) w) :=
            nextQuad_congr (quadAt_expandLoop_of_lt _ _ _ _ _ _ (by omega) (by omega)).symm
              (quadAt_expandLoop_of_lt _ _ _ _ _ _ (by omega) (by omega)).symm (by omega)
    · rw [expandLoop_succ, hri]
      exact ih (m + 1) _ (by omega) (by omega) hlt (by omega)

theorem quadAt_expand_of_le (t : SboxTable) (key : Block) {m : Nat} (hm : 4 ≤ m) (h : m < 44) :
    quadAt (expand t key) (4 * m) = nextQuad t (4 * m) (m / 4 - 1) (expand t key) :=
  quadAt_expandLoop_of_le t 40 4 m (masterKeyBytes key) le_rfl le_rfl hm h

theorem xorQuad_comm (p q : Quad) : xorQuad p q = xorQuad q p := by simp only [xorQuad, BitVec.xor_comm]

/-- The round constant is XORed into the first byte: the loop's form of R174's `XOR (RCON[i], 0, 0, 0)`. -/
theorem xorQuad_xorFirst (p q : Quad) (c : Byte) :
    xorQuad (xorFirst q c) p = xorQuad (xorQuad p q) ⟨c, 0x00#8, 0x00#8, 0x00#8⟩ := by
  rw [xorQuad_comm]
  simp [xorQuad, xorFirst, BitVec.xor_assoc]

/-- Settles O37: word `m` is what one turn of the loop computes from the schedule. -/
theorem keyWordRecurrence : Obligations.KeyWordRecurrence := by
  intro t key m hm
  have hprev : 4 * (m - 1) = 4 * m - 4 := by omega
  have hback : 4 * (m - 4) = 4 * m - 16 := by omega
  refine ⟨fun h4 => ?key, fun h4 hround => ?round, fun h4 hround => ?plain⟩
  case key => simp (disch := omega) only [quadAt, byteAt_expand_of_lt]
  case round =>
    rw [hprev, hback, ← xorQuad_xorFirst, quadAt_expand_of_le t key h4 hm, nextQuad, if_pos (by omega)]
  case plain =>
    rw [hprev, hback, xorQuad_comm, quadAt_expand_of_le t key h4 hm, nextQuad, if_neg (by omega)]

/-! ## Round keys (R175) -/

/-- Settles O38: round key 0 is the sixteen bytes the loop starts above. -/
theorem roundKeyZeroIsMasterKey : Obligations.RoundKeyZeroIsMasterKey := by
  refine ⟨fun rk i j => roundKey_getElem rk i j j.isLt, fun t key => Vector.ext fun j hj => ?_⟩
  have hindex : 16 * (0 : Fin 11).val + j = j := by simp
  rw [roundKey_getElem, ← byteAt_eq_getElem, ← byteAt_eq_getElem, hindex, byteAt_expand_of_lt t key hj]

/-! ## LDKEY (R176) -/

/-- The schedule is a variable here so that comparing the two states does not run the expansion. -/
theorem State.retire_consumeDin_installKey (s : State) (r : Schedule) :
    (s.installKey r).consumeDin.retire = { s with rk := r, keyValid := true, dinFill := 0b0000#4, pend := .none } := rfl

/-- LDKEY's checks after decoding and what it does when none fails, in R176's order. -/
theorem exec_ldkey (s : State) :
    exec .ldkey s = .next (
      if s.keyValid = true then { afterError s .keyLocked (encode .ldkey) with pend := .none }
      else if s.dinFill ≠ 0b1111#4 then { afterError s .shortKey (encode .ldkey) with pend := .none }
      else { s with rk := expand s.sbox s.din, keyValid := true, dinFill := 0b0000#4, pend := .none }) := by
  show execLdkey s = _
  rw [execLdkey]
  by_cases hkey : s.keyValid = true
  · rw [if_pos hkey, if_pos hkey, State.failCommand_eq]
  rw [if_neg hkey, if_neg hkey]
  by_cases hfill : s.dinFill = 0b1111#4
  · have hfull : ¬(!s.dinFull) = true := by simp [s.dinFull_eq_true.2 hfill]
    rw [if_neg hfull, if_neg (not_not_intro hfill), State.retire_consumeDin_installKey]
  · have hnotFull : (!s.dinFull) = true := by simpa [State.dinFull] using hfill
    rw [if_pos hnotFull, if_pos hfill, State.failCommand_eq]

/-- Settles O39: format F0 has bits 31:8 zero, and then the pending word is the one that `exec` records. -/
theorem ldkeyCommand : Obligations.LdkeyCommand := by
  refine ⟨fun s hkey hfill => ?completes, fun w s hp hop => ?word, by decide, by decide +kernel, by decide +kernel⟩
  case completes => simp [exec_ldkey, hkey, hfill]
  case word =>
    have hd : decode w = checkZeroBits w .ldkey := by simp [decode, hop]
    have hzero : w &&& mustBeZeroMask .f0 = 0#32 ↔ w.extractLsb' 8 24 = 0#24 := and_mustBeZeroMask_eq_zero_iff w .f0
    rw [engineTurn_of_checkZeroBits hp hd hzero (exec_ldkey s)]
    by_cases hz : w.extractLsb' 8 24 = 0#24
    · have hw : encode .ldkey = w := by rw [eq_wordF0_of_upper_eq_zero hz, hop]; rfl
      rw [if_pos hz, if_neg (not_not_intro hz), hw]
    · rw [if_neg hz, if_pos hz]

/-! ## CLRKEY (R177) -/

theorem exec_clrkey (s : State) : exec .clrkey s = .next s.clearKey.retire := rfl

theorem busWordAt_replicate_zero (n k : Nat) : busWordAt (Vector.replicate n 0x00#8) k = 0x00000000#32 := by
  have hbyte : ∀ i, byteAt (Vector.replicate n 0x00#8) i = 0x00#8 := fun i => by
    rw [byteAt, Vector.getElem?_replicate]
    split <;> rfl
  simp only [busWordAt, quadAt, hbyte]
  rfl

/-- With no error recorded, only SBOX_VALID is left in STATUS after CLRKEY. -/
theorem State.statusWord_retire_clearKey (s : State) (hvalid : s.sboxValid = true) (herr : s.err = 0#4) :
    s.clearKey.retire.statusWord = 0x00000002#32 := by
  simp only [State.statusWord_eq_concat, State.busy, State.errFlag, State.retire_dinFill, State.retire_err,
    State.retire_keyValid, State.retire_sboxValid, State.retire_pend, State.clearKey_dinFill, State.clearKey_err,
    State.clearKey_keyValid, State.clearKey_sboxValid, hvalid, herr]
  decide

/-- Settles O40: format F0 has bits 31:8 zero, every RK word is then read from zero bytes, and STATUS is read from the
fields that CLRKEY leaves. -/
theorem clrkeyCommand : Obligations.ClrkeyCommand := by
  refine ⟨fun s => ⟨s.clearKey.retire, rfl, rfl, fun m => busWordAt_replicate_zero 176 m, s.statusWord_retire_clearKey⟩,
    fun w s hp hop => ?word, by decide⟩
  have hd : decode w = checkZeroBits w .clrkey := by simp [decode, hop]
  rw [engineTurn_of_checkZeroBits hp hd (and_mustBeZeroMask_eq_zero_iff w .f0) (exec_clrkey s), exec_clrkey,
    ← apply_ite Host.Outcome.next]

end Sys2Proof.Machine

/-! # The round transforms

The four transforms byte by byte (spec/43_round_ops.md R190 to R193), and their laws (R194): ShiftRows has order 4
because four turns move row `r` by `4 * r` columns, MixColumns because what two turns add, the next two add again. -/

namespace Sys2Proof.Machine

/-! ## SubBytes (R190) -/

@[simp] theorem subBytes_getElem (t : SboxTable) (b : Block) (i : Nat) (h : i < 16) :
    (subBytes t b)[i] = sboxAt t b[i] := by
  simp only [subBytes, Vector.getElem_ofFn, Fin.getElem_fin]

theorem subBytes_injective {t : SboxTable} (ht : Function.Injective (sboxAt t)) : Function.Injective (subBytes t) :=
  fun a b h => Vector.ext fun i hi => ht (by rw [← subBytes_getElem, ← subBytes_getElem, h])

theorem subBytes_surjective {t : SboxTable} (ht : Function.Surjective (sboxAt t)) :
    Function.Surjective (subBytes t) := fun b =>
  ⟨b.map (Function.surjInv ht), Vector.ext fun i hi => by
    rw [subBytes_getElem, Vector.getElem_map, Function.surjInv_eq ht]⟩

/-- Settles O41: SubBytes inherits that the table is a permutation, byte by byte. -/
theorem subBytesRule : Obligations.SubBytesRule :=
  ⟨fun t b i => subBytes_getElem t b i i.isLt,
    ⟨subBytes_injective sboxAt_sboxTable_injective,
      subBytes_surjective (Finite.surjective_of_injective sboxAt_sboxTable_injective)⟩,
    by decide +kernel, by decide +kernel⟩

/-! ## ShiftRows (R191) -/

theorem shiftRows_getElem (b : Block) (i : Nat) (h : i < 16) :
    (shiftRows b)[i] = b[i % 4 + 4 * ((i / 4 + i % 4) % 4)]'(by omega) := by
  simp only [shiftRows, Vector.getElem_ofFn]

/-- `k` turns move row `r` by `k * r` columns. -/
theorem iterate_shiftRows_getElem (k : Nat) (b : Block) (i : Nat) (h : i < 16) :
    (shiftRows^[k] b)[i] = b[i % 4 + 4 * ((i / 4 + k * (i % 4)) % 4)]'(by omega) := by
  induction k generalizing i with
  | zero => exact getElem_congr_idx (by rw [Nat.zero_mul]; omega)
  | succ k ih =>
    have hrow : (i % 4 + 4 * ((i / 4 + i % 4) % 4)) % 4 = i % 4 := by omega
    have hcolumn : (i % 4 + 4 * ((i / 4 + i % 4) % 4)) / 4 = (i / 4 + i % 4) % 4 := by omega
    simp only [Function.iterate_succ_apply', shiftRows_getElem, ih, hrow, hcolumn]
    exact getElem_congr_idx (by rw [Nat.succ_mul k]; omega)

theorem iterate_shiftRows_four (b : Block) : shiftRows^[4] b = b := Vector.ext fun i hi => by
  rw [iterate_shiftRows_getElem]
  exact getElem_congr_idx (by omega)

theorem shiftRows_bijective : Function.Bijective shiftRows :=
  Function.bijective_iff_has_inverse.2 ⟨shiftRows^[3], iterate_shiftRows_four, iterate_shiftRows_four⟩

theorem shiftRows_replicate (x : Byte) : shiftRows (Vector.replicate 16 x) = Vector.replicate 16 x :=
  Vector.ext fun i hi => by rw [shiftRows_getElem, Vector.getElem_replicate, Vector.getElem_replicate]

/-- Settles O42: byte `r + 4*c` is in row `r` and column `c`; row 0 is the case `r = 0`. -/
theorem shiftRowsRule : Obligations.ShiftRowsRule := by
  have hindex : ∀ (b : Block) (r c : Fin 4),
      (shiftRows b)[r.val + 4 * c.val]'(by omega) = b[r.val + 4 * ((c.val + r.val) % 4)]'(by omega) := fun b r c => by
    rw [shiftRows_getElem]
    exact getElem_congr_idx (by omega)
  refine ⟨hindex, fun b c => ?row0, shiftRows_replicate, by decide, by decide⟩
  rw [shiftRows_getElem]
  exact getElem_congr_idx (by omega)

/-! ## MixColumns (R192) -/

theorem column_mixColumns (b : Block) (c : Fin 4) : column (mixColumns b) c = mixColumn (column b c) :=
  match c with
  | 0 | 1 | 2 | 3 => rfl

theorem ofColumns_column (b : Block) : ofColumns (column b 0) (column b 1) (column b 2) (column b 3) = b := by
  refine Vector.ext fun i hi => ?_
  interval_cases i <;> rfl

/-- A Block is its four columns. -/
theorem eq_of_column_eq {a b : Block} (h : ∀ c, column a c = column b c) : a = b := by
  rw [← ofColumns_column a, h, h, h, h, ofColumns_column]

theorem byte_xor_left_comm (a b c : Byte) : a ^^^ (b ^^^ c) = b ^^^ (a ^^^ c) := by ac_rfl

theorem mixColumn_same (x : Byte) : mixColumn ⟨x, x, x, x⟩ = ⟨x, x, x, x⟩ := by
  simp only [mixColumn, times3, Quad.mk.injEq]
  simp [BitVec.xor_comm]

theorem column_replicate (x : Byte) (c : Fin 4) : column (Vector.replicate 16 x) c = ⟨x, x, x, x⟩ := by
  simp only [column, Vector.getElem_replicate]

theorem mixColumns_replicate (x : Byte) : mixColumns (Vector.replicate 16 x) = Vector.replicate 16 x :=
  eq_of_column_eq fun c => by rw [column_mixColumns, column_replicate, mixColumn_same]

/-- Settles O43: column by column, with 2 and 3 of the matrix as the field products `times2` and `times3`. -/
theorem mixColumnsRule : Obligations.MixColumnsRule := by
  refine ⟨fun b c => ?matrix, mixColumn_same, mixColumn_same 0x00#8, by decide, by decide, by decide⟩
  simp only [gmul_comm 0x02#8, gmul_comm 0x03#8, gmul_two, gmul_three]
  have hcolumn := column_mixColumns b c
  exact ⟨congrArg Quad.b0 hcolumn, congrArg Quad.b1 hcolumn, congrArg Quad.b2 hcolumn, congrArg Quad.b3 hcolumn⟩

/-- The field sum of a column. -/
def quadSum (q : Quad) : Byte := q.b0 ^^^ q.b1 ^^^ q.b2 ^^^ q.b3

/-- One byte of the matrix product, from the column's sum `t`, its byte `x` in the same row and `y` in the next. -/
def mixByte (t x y : Byte) : Byte := x ^^^ t ^^^ times2 (x ^^^ y)

theorem mixColumn_eq_mixByte (q : Quad) :
    mixColumn q =
      ⟨mixByte (quadSum q) q.b0 q.b1, mixByte (quadSum q) q.b1 q.b2, mixByte (quadSum q) q.b2 q.b3,
        mixByte (quadSum q) q.b3 q.b0⟩ := by
  simp only [mixColumn, mixByte, quadSum, times3, times2_xor, Quad.mk.injEq]
  simp [BitVec.xor_comm, byte_xor_left_comm, BitVec.xor_assoc]

/-- Each doubled byte stands in two rows, and the sum in four. -/
theorem quadSum_mixColumn (q : Quad) : quadSum (mixColumn q) = quadSum q := by
  rw [mixColumn_eq_mixByte]
  generalize ht : quadSum q = t
  simp only [mixByte, quadSum, times2_xor] at ht ⊢
  simp [BitVec.xor_comm, byte_xor_left_comm, BitVec.xor_assoc, ← ht]

/-- Four times the field sum of two bytes. -/
def quadruple (x y : Byte) : Byte := times2 (times2 (x ^^^ y))

theorem quadruple_comm (x y : Byte) : quadruple x y = quadruple y x := by rw [quadruple, BitVec.xor_comm, quadruple]

theorem mixByte_mixByte (t x y z : Byte) : mixByte t (mixByte t x y) (mixByte t y z) = x ^^^ quadruple x z := by
  simp only [mixByte, quadruple, times2_xor]
  simp [BitVec.xor_comm, byte_xor_left_comm, BitVec.xor_assoc]

/-- Two turns add one byte to the even rows and one to the odd rows. -/
theorem mixColumn_mixColumn (q : Quad) :
    mixColumn (mixColumn q) =
      ⟨q.b0 ^^^ quadruple q.b0 q.b2, q.b1 ^^^ quadruple q.b1 q.b3, q.b2 ^^^ quadruple q.b0 q.b2,
        q.b3 ^^^ quadruple q.b1 q.b3⟩ := by
  rw [mixColumn_eq_mixByte (mixColumn q), quadSum_mixColumn, mixColumn_eq_mixByte q]
  simp only [mixByte_mixByte, quadruple_comm q.b2, quadruple_comm q.b3]

theorem quadruple_xor_xor (x y d : Byte) : quadruple (x ^^^ d) (y ^^^ d) = quadruple x y := by
  rw [quadruple, BitVec.xor_comm y, BitVec.xor_assoc, xor_cancel_left, quadruple]

theorem iterate_mixColumn_four (q : Quad) : mixColumn^[4] q = q := by
  show mixColumn (mixColumn (mixColumn (mixColumn q))) = q
  simp only [mixColumn_mixColumn, quadruple_xor_xor, xor_cancel_right]

theorem iterate_mixColumns_four (b : Block) : mixColumns^[4] b = b := by
  refine eq_of_column_eq fun c => ?_
  calc column (mixColumns^[4] b) c = mixColumn^[4] (column b c) :=
        Function.Semiconj.iterate_right (f := (column · c)) (fun b => column_mixColumns b c) 4 b
    _ = column b c := iterate_mixColumn_four _

/-! ## AddRoundKey (R193) -/

theorem addRoundKey_getElem (rk : Schedule) (b : Block) (i : Fin 11) (j : Nat) (h : j < 16) :
    (addRoundKey rk b i)[j] = b[j] ^^^ rk[16 * i.val + j]'(by omega) := by
  simp only [addRoundKey, Vector.getElem_ofFn, Fin.getElem_fin, roundKey_getElem]

theorem addRoundKey_addRoundKey (rk : Schedule) (b : Block) (i : Fin 11) :
    addRoundKey rk (addRoundKey rk b i) i = b := Vector.ext fun j hj => by
  rw [addRoundKey_getElem, addRoundKey_getElem, xor_cancel_right]

theorem addRoundKey_of_roundKey_zero {rk : Schedule} {i : Fin 11} (h : roundKey rk i = Vector.replicate 16 0x00#8)
    (b : Block) : addRoundKey rk b i = b := Vector.ext fun j hj => by
  rw [addRoundKey_getElem, ← roundKey_getElem rk i j hj, h, Vector.getElem_replicate, BitVec.xor_zero]

/-- Settles O44: byte by byte. -/
theorem addRoundKeyRule : Obligations.AddRoundKeyRule :=
  ⟨fun rk b i j => addRoundKey_getElem rk b i j j.isLt, fun _ b _ h => addRoundKey_of_roundKey_zero h b,
    by decide +kernel⟩

/-! ## Laws (R194) -/

theorem subBytes_shiftRows (t : SboxTable) (b : Block) : subBytes t (shiftRows b) = shiftRows (subBytes t b) :=
  Vector.ext fun i hi => by rw [subBytes_getElem, shiftRows_getElem, shiftRows_getElem, subBytes_getElem]

/-- A Block that two turns of MixColumns do not restore. -/
def unitBlock : Block := Vector.ofFn fun i => if i = 0 then 0x01#8 else 0x00#8

theorem mixColumns_mixColumns_unitBlock_ne : mixColumns (mixColumns unitBlock) ≠ unitBlock := by decide

/-- Settles O45: the orders of the transforms, and a Block that MixColumns twice changes. -/
theorem roundTransformLaws : Obligations.RoundTransformLaws :=
  ⟨addRoundKey_addRoundKey, shiftRows_bijective, iterate_shiftRows_four, ⟨_, mixColumns_mixColumns_unitBlock_ne⟩,
    iterate_mixColumns_four, subBytes_shiftRows⟩

end Sys2Proof.Machine

/-! # The step commands

LDST, SUBB, SHROW, MIXCOL, ADDRK and STST, from the decoded command and from its pending word (spec/43_round_ops.md R200
to R205). -/

namespace Sys2Proof

/-- In format F0 the OP alone selects the command (R105). -/
theorem decode_of_f0 {w : Word32} {i : Instr} (hf : i.format = .f0) (hop : opField w = opField (encode i)) :
    decode w = checkZeroBits w i := by
  cases i with
  | gmul2 | gmul3 | gmul | sboxlu | addrk => cases hf
  | _ =>
    rw [encode, opField_wordF0] at hop
    simp [decode, hop]

/-- A word with bits 31:12 zero is the encoding, in format FN, of its N and OP (30_encoding.md R102). -/
theorem eq_wordFN_of_upper_eq_zero {w : Word32} (h : w.extractLsb' 12 20 = 0#20) :
    w = wordFN (nField w) (opField w) := by
  have hn : BitVec.ofNat 4 (nField w) = w.extractLsb' 8 4 := by rw [nField, BitVec.ofNat_toNat, BitVec.setWidth_eq]
  refine BitVec.eq_of_getLsbD_eq fun i hi => ?_
  rw [wordFN, hn, BitVec.getLsbD_append, BitVec.getLsbD_append]
  obtain hop | ⟨hlow, hmid⟩ | hhigh : i < 8 ∨ (8 ≤ i ∧ i < 12) ∨ 12 ≤ i := by omega
  · simp [opField, hop]
  · rw [if_neg (by omega), if_pos (by omega), BitVec.getLsbD_extractLsb', decide_eq_true (by omega), Bool.true_and,
      Nat.add_sub_cancel' hlow]
  · have hbit : (w.extractLsb' 12 20).getLsbD (i - 8 - 4) = w.getLsbD i := by
      rw [BitVec.getLsbD_extractLsb', decide_eq_true (by omega), Bool.true_and, Nat.sub_sub, Nat.add_sub_cancel' hhigh]
    rw [if_neg (by omega), if_neg (by omega), ← hbit, h]

end Sys2Proof

namespace Sys2Proof.Machine

/-- The ENGINE step of a word whose OP selects the command `i` of format F0, which leaves `t`. -/
theorem engineTurn_of_f0 {s t : State} {w : Word32} {i : Instr} (hf : i.format = .f0) (hp : s.pend = .cmd w)
    (hop : opField w = opField (encode i)) (ht : exec i s = .next t) :
    engineTurn s = .next (if w.extractLsb' 8 24 = 0#24 then t else { afterError s .illegal w with pend := .none }) := by
  have hz : w &&& mustBeZeroMask i.format = 0#32 ↔ w.extractLsb' 8 24 = 0#24 := by
    rw [hf, and_mustBeZeroMask_eq_zero_iff]
  exact engineTurn_of_checkZeroBits hp (decode_of_f0 hf hop) hz ht

/-! ## LDST (R200) -/

theorem State.not_dinFull_eq_true (s : State) : (!s.dinFull) = true ↔ s.dinFill ≠ 0b1111#4 := by simp [State.dinFull]

/-- LDST's check after decoding and what it does when it does not fail. -/
theorem exec_ldst (s : State) :
    exec .ldst s = .next (
      if s.dinFill ≠ 0b1111#4 then { afterError s .trunc (encode .ldst) with pend := .none }
      else { s with state := s.din, dinFill := 0b0000#4, pend := .none }) := by
  show execLdst s = _
  simp only [execLdst, State.not_dinFull_eq_true, State.failCommand_eq]
  split <;> rfl

/-- Settles O46: when the must-be-zero bits are zero, the pending word is the one that `exec` records. -/
theorem ldstCommand : Obligations.LdstCommand := by
  refine ⟨fun s hfill => ?completes, fun w s hp hop => ?word, by decide⟩
  case completes => rw [exec_ldst, if_neg (not_not_intro hfill)]
  case word =>
    rw [engineTurn_of_f0 rfl hp (hop.trans (by decide)) (exec_ldst s)]
    by_cases hz : w.extractLsb' 8 24 = 0#24
    · have hw : encode .ldst = w := by rw [eq_wordF0_of_upper_eq_zero hz, hop]; rfl
      rw [if_pos hz, if_neg (not_not_intro hz), hw]
    · rw [if_neg hz, if_pos hz]

/-! ## SUBB (R201) -/

theorem exec_subb (s : State) : exec .subb s = .next { s with state := subBytes s.sbox s.state, pend := .none } := rfl

/-- Settles O47: the command writes STATE and PEND, and the examples are those of SubBytes. -/
theorem subbCommand : Obligations.SubbCommand := by
  obtain ⟨-, -, hzero, hexample⟩ := subBytesRule
  exact ⟨exec_subb, fun w s hp hop => engineTurn_of_f0 rfl hp (hop.trans (by decide)) (exec_subb s), by decide, hzero,
    hexample⟩

/-! ## SHROW and MIXCOL (R202, R203) -/

theorem exec_shrow (s : State) : exec .shrow s = .next { s with state := shiftRows s.state, pend := .none } := rfl

theorem exec_mixcol (s : State) : exec .mixcol s = .next { s with state := mixColumns s.state, pend := .none } := rfl

theorem runCommands_cons {i : Instr} {s t : State} (h : exec i s = .next t) (rest : List Instr) :
    runCommands (i :: rest) s = runCommands rest t := by
  simp only [runCommands, h]

/-- `k` commands that each map STATE by `f` map it by the `k`-th iterate of `f`. -/
theorem runCommands_replicate_state {i : Instr} {f : Block → Block}
    (h : ∀ s, exec i s = .next { s with state := f s.state, pend := .none }) (k : Nat) (s : State) :
    ∃ t : State, runCommands (List.replicate k i) s = .next t ∧ t.state = f^[k] s.state := by
  induction k generalizing s with
  | zero => exact ⟨s, rfl, rfl⟩
  | succ k ih =>
    rw [List.replicate_succ, runCommands_cons (h s)]
    exact ih { s with state := f s.state, pend := .none }

/-- Commands that map STATE by a function of order dividing `k` restore it after `k` of them. -/
theorem runCommands_replicate_restores {i : Instr} {f : Block → Block}
    (h : ∀ s, exec i s = .next { s with state := f s.state, pend := .none }) {k : Nat} (hf : ∀ b, f^[k] b = b)
    (s : State) : ∃ t : State, runCommands (List.replicate k i) s = .next t ∧ t.state = s.state := by
  obtain ⟨t, ht, hstate⟩ := runCommands_replicate_state h k s
  exact ⟨t, ht, hstate.trans (hf s.state)⟩

/-- Settles O48: the command writes STATE and PEND, and ShiftRows has order 4. -/
theorem shrowCommand : Obligations.ShrowCommand := by
  obtain ⟨-, -, -, -, hexample⟩ := shiftRowsRule
  exact ⟨exec_shrow, fun w s hp hop => engineTurn_of_f0 rfl hp (hop.trans (by decide)) (exec_shrow s), by decide,
    runCommands_replicate_restores exec_shrow iterate_shiftRows_four, hexample⟩

/-- Settles O49: the command writes STATE and PEND, MixColumns has order 4, and two MIXCOL on a STATE of 0x01 and
fifteen 0x00 do not restore it. -/
theorem mixcolCommand : Obligations.MixcolCommand := by
  obtain ⟨-, -, -, -, -, hexample⟩ := mixColumnsRule
  refine ⟨exec_mixcol, fun w s hp hop => engineTurn_of_f0 rfl hp (hop.trans (by decide)) (exec_mixcol s), by decide,
    mixColumns_replicate 0x00#8, runCommands_replicate_restores exec_mixcol iterate_mixColumns_four,
    ⟨{ State.reset with state := unitBlock }, ?two⟩, hexample⟩
  obtain ⟨t, ht, hstate⟩ := runCommands_replicate_state exec_mixcol 2 { State.reset with state := unitBlock }
  exact ⟨t, ht, hstate.trans_ne mixColumns_mixColumns_unitBlock_ne⟩

/-! ## ADDRK (R204) -/

theorem exec_addrk_of_keyValid (n : Fin 11) {s : State} (hkey : s.keyValid = true) :
    exec (.addrk n.val) s = .next { s with state := addRoundKey s.rk s.state n, pend := .none } := by
  show execAddrk n.val s = _
  rw [execAddrk, dif_pos (by omega), if_neg (by simp [hkey])]
  rfl

theorem exec_addrk_of_no_key {n : Nat} (hn : n ≤ 10) {s : State} (hkey : s.keyValid = false) :
    exec (.addrk n) s = .next { afterError s .noKey (encode (.addrk n)) with pend := .none } := by
  show execAddrk n s = _
  rw [execAddrk, dif_pos hn, if_pos (by simp [hkey]), State.failCommand_eq]

theorem exec_addrk_of_gt {n : Nat} (hn : 10 < n) (s : State) :
    exec (.addrk n) s = .next { afterError s .range (encode (.addrk n)) with pend := .none } := by
  show execAddrk n s = _
  rw [execAddrk, dif_neg (by omega), State.failCommand_eq]

/-- Settles O50: one case per check, in R204's order; when bits 31:12 are zero, the pending word is the one that `exec`
records. -/
theorem addrkCommand : Obligations.AddrkCommand := by
  obtain ⟨-, -, hexample⟩ := addRoundKeyRule
  refine ⟨fun n s => exec_addrk_of_keyValid n, fun w s hp hop => ?word, fun n s hkey => ?twice, by decide, hexample⟩
  case word =>
    have hd : decode w = checkZeroBits w (.addrk (nField w)) := by simp [decode, hop]
    have hzero : w &&& mustBeZeroMask .fn = 0#32 ↔ w.extractLsb' 12 20 = 0#20 := and_mustBeZeroMask_eq_zero_iff w .fn
    have hword : w.extractLsb' 12 20 = 0#20 → encode (.addrk (nField w)) = w := fun hz => by
      rw [encode, ← hop, ← eq_wordFN_of_upper_eq_zero hz]
    have hturn : ∀ {t : State}, w.extractLsb' 12 20 = 0#20 → exec (.addrk (nField w)) s = .next t →
        engineTurn s = .next t := fun hz ht => by
      rw [engineTurn_of_checkZeroBits hp hd hzero ht, if_pos hz]
    refine ⟨fun hz => ?illegal, fun hz hn => ?range, fun hz hn hkey => ?noKey, fun n hz hn hkey => ?completes⟩
    case illegal => rw [engineTurn_of_decode_error hp (hd.trans (if_neg (mt hzero.1 hz))), State.failCommand_eq]
    case range => rw [hturn hz (exec_addrk_of_gt (n := nField w) hn s), hword hz]
    case noKey => rw [hturn hz (exec_addrk_of_no_key (n := nField w) hn hkey), hword hz]
    case completes => exact hturn hz ((show nField w = n.val from hn) ▸ exec_addrk_of_keyValid n hkey)
  case twice =>
    have hagain := exec_addrk_of_keyValid n (s := { s with state := addRoundKey s.rk s.state n, pend := .none }) hkey
    exact ⟨_, (runCommands_cons (exec_addrk_of_keyValid n hkey) _).trans (runCommands_cons hagain []),
      addRoundKey_addRoundKey s.rk s.state n⟩

/-! ## STST (R205) -/

theorem exec_stst (s : State) : exec .stst s = .next { s with dout := s.state, pend := .none } := rfl

/-- Settles O51: the command writes DOUT and PEND, and the example's DOUT word is read from the first four bytes. -/
theorem ststCommand : Obligations.StstCommand := by
  refine ⟨exec_stst, fun w s hp hop => engineTurn_of_f0 rfl hp (hop.trans (by decide)) (exec_stst s), by decide,
    fun s hs => ⟨_, exec_stst s, ?word0⟩⟩
  show busWordAt s.state 0 = 0xE810D889#32
  rw [hs]
  decide

end Sys2Proof.Machine

/-! # Block encryption

The rounds of the cipher, the commands ENC and NOP, and ENC as a sequence of step commands (spec/44_block_encrypt.md
R220 to R226). -/

namespace Sys2Proof.Machine

/-! ## The cipher (R220) -/

/-- The State after the initial AddRoundKey and the first `k` of the middle rounds. -/
def roundState (t : SboxTable) (x : Block) (rk : Schedule) (k : Nat) : Block :=
  (middleRounds.take k).foldl (fullRound t rk) (addRoundKey rk x 0)

theorem take_middleRounds_eq_append :
    ∀ r : Fin 11, 1 ≤ r.val → r.val ≤ 9 → middleRounds.take r.val = middleRounds.take (r.val - 1) ++ [r] := by
  decide

theorem roundState_eq_fullRound (t : SboxTable) (x : Block) (rk : Schedule) {r : Fin 11} (hpos : 1 ≤ r.val)
    (hle : r.val ≤ 9) : roundState t x rk r.val = fullRound t rk (roundState t x rk (r.val - 1)) r := by
  rw [roundState, take_middleRounds_eq_append r hpos hle, List.foldl_concat, roundState]

/-- Settles O52: the intermediate States are `roundState`, and after nine rounds all middle rounds are done. -/
theorem cipherRounds : Obligations.CipherRounds := fun t x rk =>
  ⟨roundState t x rk, rfl, fun _ => roundState_eq_fullRound t x rk, rfl⟩

/-! ## The round keys of the reference vector (R224)

Evaluating the expander inside the cipher is too costly, so the printed round keys are shown to be its result. -/

/-- `sboxTable` without the function it is built from, so that an evaluation reads a byte straight from the printed
rows. -/
theorem sboxTable_eq_mk : sboxTable = ⟨sboxBytes.toArray, by decide +kernel⟩ := by
  refine eq_of_sboxAt_eq fun v => (sboxAt_sboxTable v).trans ?_
  have hlen : v.toNat < sboxBytes.length := v.isLt.trans_eq (by decide +kernel)
  rw [List.getD_eq_getElem _ _ hlen, sboxAt, Vector.getElem_mk, List.getElem_toArray]

theorem eq_of_quadAt_eq {w v : Schedule} (h : ∀ m < 44, quadAt w (4 * m) = quadAt v (4 * m)) : w = v := by
  refine Vector.ext fun i hi => ?_
  obtain ⟨m, j, rfl⟩ : ∃ m, ∃ j : Fin 4, i = 4 * m + j.val :=
    ⟨i / 4, ⟨i % 4, by omega⟩, (Nat.div_add_mod i 4).symm⟩
  rw [← busWordAt_extractLsb' w m j (by omega), ← busWordAt_extractLsb' v m j (by omega), busWordAt, busWordAt,
    h m (by omega)]

theorem byteAt_roundKey_zero (w : Schedule) {i : Nat} (h : i < 16) : byteAt (roundKey w 0) i = byteAt w i := by
  have hindex : 16 * (0 : Fin 11).val + i = i := by simp
  rw [byteAt_eq_getElem _ _ h, roundKey_getElem, ← byteAt_eq_getElem, hindex]

/-- The recurrence of R174 determines a schedule from its round key 0. -/
theorem expand_roundKey_zero_of_recurrence {t : SboxTable} {w : Schedule}
    (hword : ∀ m < 44, 4 ≤ m → quadAt w (4 * m) = nextQuad t (4 * m) (m / 4 - 1) w) :
    expand t (roundKey w 0) = w := by
  refine eq_of_quadAt_eq fun m hm => ?_
  induction m using Nat.strong_induction_on with
  | _ m ih =>
    obtain hkey | hloop : m < 4 ∨ 4 ≤ m := by omega
    · simp (disch := omega) only [quadAt, byteAt_expand_of_lt, byteAt_roundKey_zero]
    · have hprev := ih (m - 1) (by omega) (by omega)
      have hback := ih (m - 4) (by omega) (by omega)
      rw [Nat.mul_sub] at hprev hback
      rw [quadAt_expand_of_le t _ hloop hm, hword m hm hloop]
      exact nextQuad_congr hprev hback fun _ => rfl

/-- The round keys of V-KS for the key `000102...0f` (spec/95_test_vectors.md). -/
def referenceSchedule : Schedule :=
  #v[0x00#8, 0x01#8, 0x02#8, 0x03#8, 0x04#8, 0x05#8, 0x06#8, 0x07#8,
     0x08#8, 0x09#8, 0x0A#8, 0x0B#8, 0x0C#8, 0x0D#8, 0x0E#8, 0x0F#8,
     0xD6#8, 0xAA#8, 0x74#8, 0xFD#8, 0xD2#8, 0xAF#8, 0x72#8, 0xFA#8,
     0xDA#8, 0xA6#8, 0x78#8, 0xF1#8, 0xD6#8, 0xAB#8, 0x76#8, 0xFE#8,
     0xB6#8, 0x92#8, 0xCF#8, 0x0B#8, 0x64#8, 0x3D#8, 0xBD#8, 0xF1#8,
     0xBE#8, 0x9B#8, 0xC5#8, 0x00#8, 0x68#8, 0x30#8, 0xB3#8, 0xFE#8,
     0xB6#8, 0xFF#8, 0x74#8, 0x4E#8, 0xD2#8, 0xC2#8, 0xC9#8, 0xBF#8,
     0x6C#8, 0x59#8, 0x0C#8, 0xBF#8, 0x04#8, 0x69#8, 0xBF#8, 0x41#8,
     0x47#8, 0xF7#8, 0xF7#8, 0xBC#8, 0x95#8, 0x35#8, 0x3E#8, 0x03#8,
     0xF9#8, 0x6C#8, 0x32#8, 0xBC#8, 0xFD#8, 0x05#8, 0x8D#8, 0xFD#8,
     0x3C#8, 0xAA#8, 0xA3#8, 0xE8#8, 0xA9#8, 0x9F#8, 0x9D#8, 0xEB#8,
     0x50#8, 0xF3#8, 0xAF#8, 0x57#8, 0xAD#8, 0xF6#8, 0x22#8, 0xAA#8,
     0x5E#8, 0x39#8, 0x0F#8, 0x7D#8, 0xF7#8, 0xA6#8, 0x92#8, 0x96#8,
     0xA7#8, 0x55#8, 0x3D#8, 0xC1#8, 0x0A#8, 0xA3#8, 0x1F#8, 0x6B#8,
     0x14#8, 0xF9#8, 0x70#8, 0x1A#8, 0xE3#8, 0x5F#8, 0xE2#8, 0x8C#8,
     0x44#8, 0x0A#8, 0xDF#8, 0x4D#8, 0x4E#8, 0xA9#8, 0xC0#8, 0x26#8,
     0x47#8, 0x43#8, 0x87#8, 0x35#8, 0xA4#8, 0x1C#8, 0x65#8, 0xB9#8,
     0xE0#8, 0x16#8, 0xBA#8, 0xF4#8, 0xAE#8, 0xBF#8, 0x7A#8, 0xD2#8,
     0x54#8, 0x99#8, 0x32#8, 0xD1#8, 0xF0#8, 0x85#8, 0x57#8, 0x68#8,
     0x10#8, 0x93#8, 0xED#8, 0x9C#8, 0xBE#8, 0x2C#8, 0x97#8, 0x4E#8,
     0x13#8, 0x11#8, 0x1D#8, 0x7F#8, 0xE3#8, 0x94#8, 0x4A#8, 0x17#8,
     0xF3#8, 0x07#8, 0xA7#8, 0x8B#8, 0x4D#8, 0x2B#8, 0x30#8, 0xC5#8]

theorem expand_referenceSchedule : expand sboxTable (roundKey referenceSchedule 0) = referenceSchedule := by
  rw [sboxTable_eq_mk]
  exact expand_roundKey_zero_of_recurrence (by decide +kernel)

/-! ## ENC (R224) -/

/-- The block is a variable here so that comparing the two states does not run the cipher. -/
theorem State.retire_consumeDin_setDout_setState (s : State) (c : Block) :
    ((s.setState c).setDout c).consumeDin.retire =
      { s with state := c, dout := c, dinFill := 0b0000#4, pend := .none } := rfl

/-- ENC's checks after decoding and what it does when none fails, in R224's order. -/
theorem exec_enc (s : State) :
    exec .enc s = .next (
      if s.keyValid = false then { afterError s .noKey (encode .enc) with pend := .none }
      else if s.dinFill ≠ 0b1111#4 then { afterError s .trunc (encode .enc) with pend := .none }
      else { s with state := cipher s.sbox s.din s.rk, dout := cipher s.sbox s.din s.rk, dinFill := 0b0000#4,
                    pend := .none }) := by
  show execEnc s = _
  simp only [execEnc, Bool.not_eq_true' s.keyValid, State.not_dinFull_eq_true, State.failCommand_eq,
    State.retire_consumeDin_setDout_setState]
  by_cases hkey : s.keyValid = false
  · rw [if_pos hkey, if_pos hkey]
  · rw [if_neg hkey, if_neg hkey, apply_ite Host.Outcome.next]

theorem exec_enc_of_ready {s : State} (hkey : s.keyValid = true) (hfill : s.dinFill = 0b1111#4) :
    exec .enc s = .next { s with state := cipher s.sbox s.din s.rk, dout := cipher s.sbox s.din s.rk,
                                 dinFill := 0b0000#4, pend := .none } := by
  rw [exec_enc, if_neg (by simp [hkey]), if_neg (not_not_intro hfill)]

/-- Settles O53: when the must-be-zero bits are zero, the pending word is the one that `exec` records. The reference
vector is evaluated with the printed round keys, which the recurrence shows to be the expansion of its key. -/
theorem encCommand : Obligations.EncCommand := by
  refine ⟨fun s => exec_enc_of_ready, fun w s hp hop => ?word, by decide, ?vector⟩
  case word =>
    rw [engineTurn_of_f0 rfl hp (hop.trans (by decide)) (exec_enc s)]
    by_cases hz : w.extractLsb' 8 24 = 0#24
    · have hw : encode .enc = w := by rw [eq_wordF0_of_upper_eq_zero hz, hop]; rfl
      rw [if_pos hz, if_neg (not_not_intro hz), hw]
    · rw [if_neg hz, if_pos hz]
  case vector =>
    show cipher sboxTable _ (expand sboxTable (roundKey referenceSchedule 0)) = _
    rw [expand_referenceSchedule, sboxTable_eq_mk]
    decide +kernel

/-! ## NOP (R225) -/

theorem exec_nop (s : State) : exec .nop s = .next { s with pend := .none } := rfl

/-- Settles O54: the command writes PEND only, and format F0 has bits 31:8 zero. -/
theorem nopCommand : Obligations.NopCommand :=
  ⟨exec_nop, fun _ s hp hop => engineTurn_of_f0 rfl hp (hop.trans (by decide)) (exec_nop s), by decide⟩

/-! ## ENC as step commands (R226)

Between two step commands the state is `(s.setState b).retire`: the ENGINE is idle, and only STATE has moved on,
to `b`. -/

theorem runCommands_subb (rest : List Instr) (s : State) (b : Block) :
    runCommands (.subb :: rest) (s.setState b).retire = runCommands rest (s.setState (subBytes s.sbox b)).retire := rfl

theorem runCommands_shrow (rest : List Instr) (s : State) (b : Block) :
    runCommands (.shrow :: rest) (s.setState b).retire = runCommands rest (s.setState (shiftRows b)).retire := rfl

theorem runCommands_mixcol (rest : List Instr) (s : State) (b : Block) :
    runCommands (.mixcol :: rest) (s.setState b).retire = runCommands rest (s.setState (mixColumns b)).retire := rfl

theorem runCommands_addrk (n : Fin 11) {s : State} (hkey : s.keyValid = true) (rest : List Instr) (b : Block) :
    runCommands (.addrk n.val :: rest) (s.setState b).retire =
      runCommands rest (s.setState (addRoundKey s.rk b n)).retire := by
  rw [runCommands_cons (exec_addrk_of_keyValid n (s := (s.setState b).retire) hkey)]
  rfl

/-- `subb; shrow; mixcol; addrk r` is round `r` of the cipher. -/
theorem runCommands_roundSteps (r : Fin 11) {s : State} (hkey : s.keyValid = true) (rest : List Instr) (b : Block) :
    runCommands (roundSteps r.val ++ rest) (s.setState b).retire =
      runCommands rest (s.setState (fullRound s.sbox s.rk b r)).retire := by
  show runCommands (.subb :: .shrow :: .mixcol :: .addrk r.val :: rest) _ = _
  rw [runCommands_subb, runCommands_shrow, runCommands_mixcol, runCommands_addrk r hkey, fullRound]

theorem runCommands_flatMap_roundSteps (rounds : List (Fin 11)) {s : State} (hkey : s.keyValid = true)
    (rest : List Instr) (b : Block) :
    runCommands (rounds.flatMap (fun r => roundSteps r.val) ++ rest) (s.setState b).retire =
      runCommands rest (s.setState (rounds.foldl (fullRound s.sbox s.rk) b)).retire := by
  induction rounds generalizing b with
  | nil => rfl
  | cons r rounds ih =>
    rw [List.flatMap_cons, List.append_assoc, runCommands_roundSteps r hkey, ih, List.foldl_cons]

/-- `subb; shrow; addrk 10; stst` is the final round, its result also in DOUT. -/
theorem runCommands_finalSteps {s : State} (hkey : s.keyValid = true) (b : Block) :
    runCommands [.subb, .shrow, .addrk (10 : Fin 11).val, .stst] (s.setState b).retire =
      .next ((s.setState (finalRound s.sbox s.rk b)).setDout (finalRound s.sbox s.rk b)).retire := by
  rw [runCommands_subb, runCommands_shrow, runCommands_addrk 10 hkey, runCommands_cons (exec_stst _), finalRound]
  rfl

theorem encAsSteps_eq :
    encAsSteps = .ldst :: .addrk (0 : Fin 11).val :: (middleRounds.flatMap (fun r => roundSteps r.val) ++
      [Instr.subb, Instr.shrow, Instr.addrk (10 : Fin 11).val, Instr.stst]) := rfl

/-- LDST empties DIN_FILL, which no later step command reads. -/
theorem runCommands_encAsSteps {s : State} (hkey : s.keyValid = true) (hfill : s.dinFill = 0b1111#4) :
    runCommands encAsSteps s = exec .enc s := by
  have hldst : exec .ldst s = .next (s.consumeDin.setState s.din).retire := by
    rw [exec_ldst, if_neg (not_not_intro hfill)]
    rfl
  have hconsumed : s.consumeDin.keyValid = true := hkey
  rw [encAsSteps_eq, runCommands_cons hldst, runCommands_addrk 0 hconsumed,
    runCommands_flatMap_roundSteps middleRounds hconsumed, runCommands_finalSteps hconsumed,
    exec_enc_of_ready hkey hfill, ← State.retire_consumeDin_setDout_setState, cipher]
  rfl

/-- Settles O55: the step commands and ENC answer the same next state. R226's premise that no error is recorded is for
the host, whose CMD writes are else discarded; the commands do not read ERR. -/
theorem encEqualsStepCommands : Obligations.EncEqualsStepCommands := fun _ hkey hfill _ =>
  ⟨_, _, (runCommands_encAsSteps hkey hfill).trans (exec_enc_of_ready hkey hfill), exec_enc_of_ready hkey hfill,
    rfl, rfl, rfl, rfl⟩

end Sys2Proof.Machine

/-! # Errors

The first error since the last clear is the one that stays (spec/60_exceptions.md R242, R250), a command's checks run in
the order of R247, and a recorded error stops new commands until an ERR write clears it (R245, R246). -/

namespace Sys2Proof

/-! ## The word of a decoded command -/

theorem encode_of_f0 {i : Instr} (hf : i.format = .f0) : encode i = wordF0 (opField (encode i)) := by
  cases i with
  | gmul2 | gmul3 | gmul | sboxlu | addrk => cases hf
  | _ => simp only [encode, opField_wordF0]

theorem encode_of_decode_f0 {w : Word32} {i : Instr} (h : decode w = .ok i) (hf : i.format = .f0) : encode i = w := by
  obtain ⟨hop, hzero⟩ := opField_and_zeroBits_of_decode h
  rw [hf, and_mustBeZeroMask_eq_zero_iff] at hzero
  rw [encode_of_f0 hf, ← hop, ← eq_wordF0_of_upper_eq_zero hzero]

theorem nField_of_decode_addrk {w : Word32} {n : Nat} (h : decode w = .ok (.addrk n)) : nField w = n := by
  have hop : opField w = 0x24#8 := (opField_and_zeroBits_of_decode h).1.trans (opField_wordFN n 0x24#8)
  have hd : decode w = checkZeroBits w (.addrk (nField w)) := by simp [decode, hop]
  obtain ⟨hn, -⟩ := (checkZeroBits_eq_ok_iff w _ _).1 (hd.symm.trans h)
  exact Instr.addrk.inj hn

theorem encode_of_decode_addrk {w : Word32} {n : Nat} (h : decode w = .ok (.addrk n)) : encode (.addrk n) = w := by
  obtain ⟨hop, hzero⟩ := opField_and_zeroBits_of_decode h
  have hupper : w.extractLsb' 12 20 = 0#20 := (and_mustBeZeroMask_eq_zero_iff w .fn).1 hzero
  rw [encode, opField_wordFN] at hop
  rw [encode, ← nField_of_decode_addrk h, ← hop, ← eq_wordFN_of_upper_eq_zero hupper]

/-! ## A word with a row's pattern decodes -/

/-- The operands come from the word, so a word's command and a command of the same OP agree in their format only. -/
theorem decode_of_opField {w : Word32} {i : Instr} (hop : opField w = opField (encode i)) :
    ∃ j : Instr, decode w = checkZeroBits w j ∧ j.format = i.format := by
  cases i with
  | gmul2 =>
    rw [encode, opField_wordFA] at hop
    exact ⟨.gmul2 (aField w), by simp [decode, hop], rfl⟩
  | gmul3 =>
    rw [encode, opField_wordFA] at hop
    exact ⟨.gmul3 (aField w), by simp [decode, hop], rfl⟩
  | gmul =>
    rw [encode, opField_wordFAB] at hop
    exact ⟨.gmul (aField w) (bField w), by simp [decode, hop], rfl⟩
  | sboxlu =>
    rw [encode, opField_wordFA] at hop
    exact ⟨.sboxlu (aField w), by simp [decode, hop], rfl⟩
  | addrk =>
    rw [encode, opField_wordFN] at hop
    exact ⟨.addrk (nField w), by simp [decode, hop], rfl⟩
  | _ => exact ⟨_, decode_of_f0 rfl hop, rfl⟩

/-- One command of every row, in the order of the opcode table. -/
def rowCommands : List Instr :=
  [.nop, .ldkey, .enc, .clrkey, .gmul2 0x00#8, .gmul3 0x00#8, .gmul 0x00#8 0x00#8, .sboxlu 0x00#8, .ldst, .subb, .shrow,
   .mixcol, .addrk 0, .stst]

/-- Every row is some command's: the converse of `exists_opcodeRow`. -/
theorem exists_command_of_row : ∀ r ∈ opcodeRows, ∃ i ∈ rowCommands,
    r.mask = mustBeZeroMask i.format ||| 0x000000FF#32 ∧ r.matchBits = (opField (encode i)).setWidth 32 ∧
      r.matchBits &&& mustBeZeroMask i.format = 0#32 := by decide

theorem exists_decode_of_matching_row {w : Word32} {r : OpcodeRow} (hr : r ∈ opcodeRows)
    (hmatch : w &&& r.mask = r.matchBits) : ∃ i : Instr, decode w = .ok i := by
  obtain ⟨i, -, hmask, hbits, hclear⟩ := exists_command_of_row r hr
  have hzero : w &&& mustBeZeroMask i.format = 0#32 := by
    rw [← hclear, ← hmatch, hmask, BitVec.and_assoc]
    congr 1
    cases i.format <;> decide
  have hop : opField w = opField (encode i) := by
    have h := (and_decodeMask_of_zeroBits hzero).symm.trans (hmask ▸ hmatch.trans hbits)
    simpa using congrArg (BitVec.setWidth 8) h
  obtain ⟨j, hd, hf⟩ := decode_of_opField hop
  exact ⟨j, hd.trans (if_pos (hf ▸ hzero))⟩

theorem any_matchesWord_eq_isOk_decode (w : Word32) :
    opcodeRows.any (fun r => r.matchesWord w) = (decode w).isOk := by
  rw [Bool.eq_iff_iff, List.any_eq_true]
  cases hd : decode w with
  | ok i =>
    obtain ⟨r, hr, hmatch⟩ := exists_matching_row_of_decode hd
    exact ⟨fun _ => rfl, fun _ => ⟨r, hr, beq_iff_eq.2 hmatch⟩⟩
  | error e =>
    refine ⟨fun ⟨r, hr, hmatch⟩ => ?_, fun h => nomatch h⟩
    obtain ⟨i, hi⟩ := exists_decode_of_matching_row hr (beq_iff_eq.1 hmatch)
    cases hd.symm.trans hi

end Sys2Proof

namespace Sys2Proof.Machine

/-! ## The checks of a decoded command, and what it does when they pass (R247) -/

/-- The first check after decoding that fails for the command `i`. -/
def failedCheck (i : Instr) (s : State) : Option ErrCause :=
  match i with
  | .ldkey => if s.keyValid = true then some .keyLocked else if s.dinFill ≠ 0b1111#4 then some .shortKey else none
  | .enc => if s.keyValid = false then some .noKey else if s.dinFill ≠ 0b1111#4 then some .trunc else none
  | .ldst => if s.dinFill ≠ 0b1111#4 then some .trunc else none
  | .addrk n => if 10 < n then some .range else if s.keyValid = false then some .noKey else none
  | _ => none

/-- What the command `i` does when no check fails (step 5 of R247). -/
def performed (i : Instr) (s : State) : State :=
  match i with
  | .nop => s.retire
  | .ldkey => (s.installKey (expand s.sbox s.din)).consumeDin.retire
  | .enc => ((s.setState (cipher s.sbox s.din s.rk)).setDout (cipher s.sbox s.din s.rk)).consumeDin.retire
  | .clrkey => s.clearKey.retire
  | .gmul2 a => (s.setRes (times2 a)).retire
  | .gmul3 a => (s.setRes (times3 a)).retire
  | .gmul a b => (s.setRes (gmul a b)).retire
  | .sboxlu a => (s.setRes (sboxAt s.sbox a)).retire
  | .ldst => (s.setState s.din).consumeDin.retire
  | .subb => (s.setState (subBytes s.sbox s.state)).retire
  | .shrow => (s.setState (shiftRows s.state)).retire
  | .mixcol => (s.setState (mixColumns s.state)).retire
  | .addrk n => (s.setState (addRoundKey s.rk s.state (Fin.ofNat 11 n))).retire
  | .stst => (s.setDout s.state).retire

/-- Everything a command does: its first failing check ends it, or it is performed. -/
theorem exec_eq_checks (i : Instr) (s : State) :
    exec i s = .next ((failedCheck i s).elim (performed i s) fun e => s.failCommand e (encode i)) := by
  cases i with
  | ldkey =>
    simp only [exec_ldkey, failedCheck, performed, State.failCommand_eq, State.retire_consumeDin_installKey]
    split_ifs <;> rfl
  | enc =>
    simp only [exec_enc, failedCheck, performed, State.failCommand_eq, State.retire_consumeDin_setDout_setState]
    split_ifs <;> rfl
  | ldst =>
    simp only [exec_ldst, failedCheck, ← State.failCommand_eq]
    split_ifs <;> rfl
  | addrk n =>
    simp only [failedCheck]
    split_ifs with hn hkey
    · rw [exec_addrk_of_gt hn, ← State.failCommand_eq]
      rfl
    · rw [exec_addrk_of_no_key (by omega) hkey, ← State.failCommand_eq]
      rfl
    · have hmod : (Fin.ofNat 11 n).val = n := Nat.mod_eq_of_lt (by omega)
      have h := exec_addrk_of_keyValid (Fin.ofNat 11 n) (Bool.eq_true_of_not_eq_false hkey)
      rw [hmod] at h
      exact h
  | _ => rfl

theorem exec_of_failedCheck {i : Instr} {s : State} {e : ErrCause} (h : failedCheck i s = some e) :
    exec i s = .next (s.failCommand e (encode i)) := by
  rw [exec_eq_checks, h, Option.elim_some]

theorem exec_of_passed {i : Instr} {s : State} (h : failedCheck i s = none) : exec i s = .next (performed i s) := by
  rw [exec_eq_checks, h, Option.elim_none]

@[simp] theorem performed_err (i : Instr) (s : State) : (performed i s).err = s.err := by
  cases i <;> simp [performed]

@[simp] theorem performed_errInfo (i : Instr) (s : State) : (performed i s).errInfo = s.errInfo := by
  cases i <;> simp [performed]

@[simp] theorem performed_pend (i : Instr) (s : State) : (performed i s).pend = .none := by
  cases i <;> simp [performed]

/-! ## The check order, read from the word -/

theorem firstFailedCheck_of_decode_error {w : Word32} {r : DecodeReject} (hd : decode w = .error r) (s : State) :
    firstFailedCheck w s = some .illegal := by
  rw [firstFailedCheck, any_matchesWord_eq_isOk_decode, hd]
  rfl

/-- Once the word decodes, R247 read from the word and the command's own checks fail at the same place. -/
theorem firstFailedCheck_of_decode {w : Word32} {i : Instr} (hd : decode w = .ok i) (s : State) :
    firstFailedCheck w s = failedCheck i s := by
  have hop : opField w = opField (encode i) := (opField_and_zeroBits_of_decode hd).1
  have hrow : (!opcodeRows.any fun r => r.matchesWord w) = false := by rw [any_matchesWord_eq_isOk_decode, hd]; rfl
  cases i with
  | addrk n => simp [firstFailedCheck, failedCheck, hrow, hop, encode, nField_of_decode_addrk hd]
  | _ => simp [firstFailedCheck, failedCheck, hrow, hop, encode]

/-- The commands with checks of their own have formats F0 and FN, where the word is the encoding. -/
theorem encode_of_decode_of_failedCheck {w : Word32} {i : Instr} {s : State} {e : ErrCause} (hd : decode w = .ok i)
    (h : failedCheck i s = some e) : encode i = w := by
  cases i with
  | ldkey | enc | ldst => exact encode_of_decode_f0 hd rfl
  | addrk n => exact encode_of_decode_addrk hd
  | _ => cases h

theorem engineTurn_of_decode {s : State} {w : Word32} {i : Instr} (hp : s.pend = .cmd w) (hd : decode w = .ok i) :
    engineTurn s = exec i s := by simp only [engineTurn, hp, hd]

/-- Settles O57: decoding is the first check of R247; the others are the decoded command's own. -/
theorem commandChecksInOrder : Obligations.CommandChecksInOrder := by
  intro s w hp
  cases hd : decode w with
  | error r =>
    rw [firstFailedCheck_of_decode_error hd, engineTurn_of_decode_error hp hd, State.failCommand_eq]
    exact ⟨fun e he => by cases he; rfl, fun h => nomatch h⟩
  | ok i =>
    rw [firstFailedCheck_of_decode hd, engineTurn_of_decode hp hd]
    refine ⟨fun e he => ?fails, fun hnone => ⟨i, performed i s, rfl, rfl, exec_of_passed hnone, performed_err i s,
      performed_errInfo i s, performed_pend i s⟩⟩
    rw [exec_of_failedCheck he, encode_of_decode_of_failedCheck hd he, State.failCommand_eq]

/-! ## The first error is kept (R242, R250) -/

theorem afterError_of_recorded {s : State} (h : s.err ≠ 0#4) (e : ErrCause) (info : Word32) :
    afterError s e info = s := by
  rw [← State.raise_eq_afterError, s.raise_of_recorded e info h]

theorem State.failCommand_of_recorded {s : State} (h : s.err ≠ 0#4) (e : ErrCause) (w : Word32) :
    s.failCommand e w = s.retire := by rw [State.failCommand, s.raise_of_recorded e w h]

/-- An aligned offset is the offset of the register it names: the converse of `Reg.atOffset_of_offset?`. -/
theorem Reg.offset?_atOffset {off : Offset} (h : off.toNat % 4 = 0) :
    (Reg.atOffset off).offset? = some off ∨ Reg.atOffset off = .reserved := by
  have hword : ∀ {o : Nat}, off.toNat = o → some (BitVec.ofNat 10 o) = some off := by rintro _ rfl; simp
  have hwindow : ∀ {b : Nat}, b % 4 = 0 → b ≤ off.toNat →
      some (BitVec.ofNat 10 (b + 4 * ((off.toNat - b) / 4))) = some off := fun _ _ => hword (by omega)
  unfold Reg.atOffset
  dsimp only
  split_ifs with hcmd hstatus herr hinfo hres hid hdin hdout hrk hsb
  · exact .inl (hword hcmd)
  · exact .inl (hword hstatus)
  · exact .inl (hword herr)
  · exact .inl (hword hinfo)
  · exact .inl (hword hres)
  · exact .inl (hword hid)
  · exact .inl (hwindow rfl hdin.1)
  · exact .inl (hwindow rfl hdout.1)
  · exact .inl (hwindow rfl hrk.1)
  · exact .inl (hwindow rfl hsb.1)
  · exact .inr rfl

theorem Reg.atOffset_ne {off o : Offset} {r : Reg} (h : off.toNat % 4 = 0) (hr : r.offset? = some o) (hne : off ≠ o) :
    Reg.atOffset off ≠ r := by
  rintro rfl
  rcases Reg.offset?_atOffset h with hoff | hres
  · exact hne (Option.some.inj (hoff.symm.trans hr))
  · simp [hres, Reg.offset?] at hr
/-- The error registers hold in `t` what they hold in `s`. -/
def SameError (s t : State) : Prop := t.err = s.err ∧ t.errInfo = s.errInfo

theorem sameError_of_eq {s t : State} (h : t = s) : SameError s t := by
  subst h
  exact ⟨rfl, rfl⟩

theorem exec_sameError_of_recorded {i : Instr} {s t : State} (h : s.err ≠ 0#4) (ht : exec i s = .next t) :
    SameError s t := by
  rcases exec_error_cases i s t ht with hsame | ⟨e, rfl⟩
  · exact hsame
  · rw [State.failCommand_of_recorded h]
    exact ⟨rfl, rfl⟩

theorem engineTurn_sameError_of_recorded {s t : State} (h : s.err ≠ 0#4) (ht : engineTurn s = .next t) :
    SameError s t := by
  rcases engineTurn_cases s with ⟨-, hturn⟩ | ⟨-, hturn⟩ | ⟨w, r, -, -, hturn⟩ | ⟨w, i, -, -, hturn⟩
  · exact sameError_of_eq (Host.Outcome.next.inj (ht.symm.trans hturn))
  · obtain rfl := Host.Outcome.next.inj (hturn.symm.trans ht)
    exact ⟨by simp, by simp⟩
  · rw [State.failCommand_of_recorded h] at hturn
    obtain rfl := Host.Outcome.next.inj (hturn.symm.trans ht)
    exact ⟨s.retire_err, s.retire_errInfo⟩
  · exact exec_sameError_of_recorded h (hturn.symm.trans ht)

theorem State.readEffect_of_recorded {s : State} (h : s.err ≠ 0#4) (size : Nat) (off : Offset) :
    s.readEffect size off = s := by
  rcases s.readEffect_cases size off with ⟨-, heff⟩ | ⟨-, heff⟩
  · exact heff
  · exact heff.trans (afterError_of_recorded h ..)

/-- The only write that changes a recorded error is the ERR write (R246). -/
theorem State.write_sameError_of_recorded {s : State} (h : s.err ≠ 0#4) {size : Nat} {off : Offset} (v : Word32)
    (hclear : (Event.write size off v).clearsError = false) : SameError s (s.write size off v) := by
  cases hd : accessDefined size off with
  | false => exact sameError_of_eq ((s.write_of_undefined v hd).trans (afterError_of_recorded h ..))
  | true =>
    obtain ⟨rfl, halign⟩ := (accessDefined_eq_true size off).1 hd
    have hreg : Reg.atOffset off ≠ .err := Reg.atOffset_ne halign rfl (by simpa [Event.clearsError] using hclear)
    rcases s.write_cases 4 off v with hw | ⟨e, info, hw⟩ | ⟨-, hzero, -⟩ | ⟨-, -, herr⟩ | ⟨k, -, -, hw⟩
    · exact sameError_of_eq hw
    · exact sameError_of_eq (hw.trans (afterError_of_recorded h e info))
    · exact absurd hzero h
    · exact absurd herr hreg
    · rw [hw]
      exact ⟨rfl, rfl⟩

theorem applyEvent_sameError_of_recorded {s t : State} (h : s.err ≠ 0#4) {e : Event} (hclear : e.clearsError = false)
    (ht : applyEvent e s = .next t) : SameError s t := by
  cases e with
  | engine => exact engineTurn_sameError_of_recorded h ht
  | read size off =>
    cases ht
    rw [State.readEffect_of_recorded h]
    exact ⟨rfl, rfl⟩
  | write size off v =>
    cases ht
    exact State.write_sameError_of_recorded h v hclear
  | reset => cases hclear

/-- Settles O56: `raise` by its two cases, and then every event of a step. -/
theorem firstErrorIsKept : Obligations.FirstErrorIsKept := by
  refine ⟨fun s e info => ⟨s.raise_of_clear e info, s.raise_of_recorded e info⟩, fun s t h ht hclear => ?step⟩
  rw [step] at ht
  cases hinbox : s.inbox with
  | nil =>
    simp only [hinbox] at ht
    exact engineTurn_sameError_of_recorded h ht
  | cons e es =>
    simp only [hinbox] at ht
    exact applyEvent_sameError_of_recorded (s := s.setInbox es) h (hclear e (by rw [hinbox]; rfl)) ht

/-! ## What still works while an error is recorded (R245, R246) -/

/-- The registers that do not show the error read the same with any error. -/
theorem State.readReg_of_error (s : State) (e : BitVec 4) (x : Word32) {r : Reg} (hstatus : r ≠ .status)
    (herr : r ≠ .err) (hinfo : r ≠ .errInfo) : State.readReg { s with err := e, errInfo := x } r = s.readReg r := by
  cases r with
  | status => exact absurd rfl hstatus
  | err => exact absurd rfl herr
  | errInfo => exact absurd rfl hinfo
  | _ => rfl

/-- No check of a command reads the error. -/
theorem failedCheck_of_error (i : Instr) (s : State) (e : BitVec 4) (x : Word32) :
    failedCheck i { s with err := e, errInfo := x } = failedCheck i s := by cases i <;> rfl

/-- No command reads the error. -/
theorem performed_of_error (i : Instr) (s : State) (e : BitVec 4) (x : Word32) :
    performed i { s with err := e, errInfo := x } = { performed i s with err := e, errInfo := x } := by cases i <;> rfl

/-- A command does to all other elements what it does without the error; what it would raise is lost. -/
theorem exec_of_error {i : Instr} {s t : State} {e : BitVec 4} (x : Word32) (ht : exec i s = .next t) (he : e ≠ 0#4) :
    exec i { s with err := e, errInfo := x } = .next { t with err := e, errInfo := x } := by
  cases hcheck : failedCheck i s with
  | none =>
    cases (exec_of_passed hcheck).symm.trans ht
    rw [exec_of_passed ((failedCheck_of_error i s e x).trans hcheck), performed_of_error]
  | some c =>
    cases (exec_of_failedCheck hcheck).symm.trans ht
    rw [exec_of_failedCheck ((failedCheck_of_error i s e x).trans hcheck), State.failCommand_of_recorded he,
      State.failCommand_eq]
    rfl

/-- A DIN write needs an idle engine, and no error registers (R248). -/
theorem State.write_din_of_idle {s : State} {k : Fin 4} {off : Offset} (hoff : off.toNat = 0x020 + 4 * k.val)
    (hp : s.pend = .none) (v : Word32) : s.write 4 off v = s.writeDin k v := by
  rw [s.write_of_aligned v (by omega), Reg.atOffset_din off k hoff]
  exact s.writeDinReg_of_idle k off v hp

/-- Settles O58: the access clauses are the write and read rules with the error recorded, and the command clause is
`exec_of_error`. -/
theorem errorsBlockCommandsUntilCleared : Obligations.ErrorsBlockCommandsUntilCleared := by
  refine ⟨fun s v h => ?cmd, fun s k off v _ hp hoff => ?din, fun s size off v h hundef => ?undefined,
    fun s off e x halign hstatus herr hinfo => ?read, fun i s t e x => exec_of_error x, fun s v => rfl⟩
  case cmd =>
    show s.writeCmd v = s
    rw [State.writeCmd_eq, if_pos h]
  case din =>
    refine ⟨(s.writeDin k v).din, (s.writeDin k v).dinFill, State.write_din_of_idle hoff hp v, ?fill,
      quadAt_putQuad_same s.din (4 * k.val) (quadOfWord v) (by omega)⟩
    exact (setFillBit_getLsbD s.dinFill k k).trans (by simp)
  case undefined =>
    have hd : accessDefined size off = false := (accessDefined_eq_false size off).2 hundef
    exact ⟨(s.write_of_undefined v hd).trans (afterError_of_recorded h ..), State.readEffect_of_recorded h size off⟩
  case read =>
    rw [State.readValue_of_aligned _ halign, State.readValue_of_aligned _ halign]
    exact s.readReg_of_error e x (Reg.atOffset_ne halign rfl hstatus) (Reg.atOffset_ne halign rfl herr)
      (Reg.atOffset_ne halign rfl hinfo)

end Sys2Proof.Machine

/-! # Reset

The reset input and the time until the first ENGINE step after it (spec/70_reset_and_hazards.md R280, R281). -/

namespace Sys2Proof.Machine

/-! ## The reset event (R280) -/

theorem step_of_reset {s : State} {es : List Event} (h : s.inbox = .reset :: es) :
    step s = .next (s.setInbox es).assertReset := by
  simp only [step, h, applyEvent]

/-- Settles O2: power-on and the reset event give the twelve elements the same values, and the reset event reads none of
the state before it. -/
theorem resetSetsEveryElement : Obligations.ResetSetsEveryElement := by
  rintro s es (rfl | ⟨u, hu, hstep⟩)
  · exact ⟨rfl, rfl, rfl, rfl, rfl, rfl, rfl, rfl, rfl, rfl, rfl, rfl⟩
  · cases (step_of_reset hu).symm.trans hstep
    exact ⟨rfl, rfl, rfl, rfl, rfl, rfl, rfl, rfl, rfl, rfl, rfl, rfl⟩

/-! ## Until GEN (R281) -/

theorem State.assertReset_inv (s : State) : s.assertReset.Inv where
  validIffGenDone := iff_of_true rfl rfl
  sboxZero := fun _ => rfl
  sboxIsTable := fun h => nomatch h
  rkZero := fun _ => rfl
  rkIsSchedule := fun h => nomatch h
  noErrNoInfo := fun _ => rfl
  errDefined := Nat.zero_le 8
  keyAfterGen := fun h => nomatch h
  noFillBeforeGen := fun _ => rfl

section
variable {s : State}

theorem State.Inv.sboxValid_of_gen (hinv : s.Inv) (hp : s.pend = .gen) : s.sboxValid = false :=
  hinv.validIffGenDone.2 hp

theorem State.Inv.keyValid_of_gen (hinv : s.Inv) (hp : s.pend = .gen) : s.keyValid = false :=
  Bool.eq_false_iff.2 fun hkey => Bool.eq_false_iff.1 (hinv.sboxValid_of_gen hp) (hinv.keyAfterGen hkey)

/-- While GEN is pending, STATUS holds BUSY and ERRF only. -/
theorem State.Inv.statusWord_of_gen (hinv : s.Inv) (hp : s.pend = .gen) :
    s.statusWord = if s.err = 0#4 then 0x00000001#32 else 0x00000009#32 := by
  have hbusy : s.busy = true := by rw [State.busy_eq_true, hp]; exact Pend.noConfusion
  rw [State.statusWord_eq_concat, hinv.noFillBeforeGen hp, hinv.keyValid_of_gen hp, hinv.sboxValid_of_gen hp, hbusy,
    State.errFlag_eq_decide]
  split_ifs with herr
  · rw [decide_eq_false (not_not_intro herr)]; rfl
  · rw [decide_eq_true herr]; rfl

/-- GEN, begun under the invariant, leaves STATUS with SBOX_VALID and ERRF only. -/
theorem State.Inv.statusWord_gen (hinv : s.Inv) (hp : s.pend = .gen) :
    s.gen.statusWord = if s.err = 0#4 then 0x00000002#32 else 0x0000000A#32 := by
  rw [State.statusWord_gen, hinv.noFillBeforeGen hp, hinv.keyValid_of_gen hp, State.errFlag_eq_decide]
  split_ifs with herr
  · rw [decide_eq_false (not_not_intro herr)]; rfl
  · rw [decide_eq_true herr]; rfl

theorem State.Inv.readReg_sb_of_gen (hinv : s.Inv) (hp : s.pend = .gen) (m : Fin 64) :
    s.readReg (.sb m) = 0x00000000#32 := by
  rw [State.readReg, hinv.sboxZero (hinv.sboxValid_of_gen hp)]
  exact busWordAt_replicate_zero 256 m

/-- A CMD write to a busy engine raises BUSY, which a recorded error hides: then the write is discarded (R73, R245). -/
theorem State.write_cmd_of_busy (hp : s.pend ≠ .none) (v : Word32) :
    s.write 4 0x000#10 v = s.raise .busy 0x00000000#32 := by
  have hwrite : s.write 4 0x000#10 v = s.writeCmd v := rfl
  rw [hwrite, State.writeCmd_eq, if_pos hp]
  split_ifs with herr
  · exact (s.raise_of_recorded .busy _ herr).symm
  · exact (State.raise_eq_afterError ..).symm

theorem State.write_din_of_busy {k : Fin 4} {off : Offset} (hoff : off.toNat = 0x020 + 4 * k.val)
    (hp : s.pend ≠ .none) (v : Word32) : s.write 4 off v = s.raise .busy (offsetInfo off) := by
  rw [s.write_of_aligned v (by omega), Reg.atOffset_din off k hoff, State.raise_eq_afterError]
  exact s.writeDinReg_of_busy k off v hp

end

/-- Settles O3: the invariant holds after reset, and fixes what the host sees while GEN is pending; a pending operation is
what makes the writes raise BUSY. -/
theorem firstEngineStepAfterReset : Obligations.FirstEngineStepAfterReset := by
  refine ⟨fun s => ⟨s.assertReset_inv, rfl, rfl, s.assertReset_inv.statusWord_of_gen rfl⟩, fun s hinv hp => ?_⟩
  have hbusy : s.pend ≠ .none := by rw [hp]; exact Pend.noConfusion
  exact ⟨hinv.statusWord_of_gen hp, hinv.readReg_sb_of_gen hp, State.write_cmd_of_busy hbusy,
    fun _ _ v hoff => State.write_din_of_busy hoff hbusy v, s.gen, engineTurn_of_gen hp, s.gen_eq_sboxTable,
    hinv.statusWord_gen hp⟩

end Sys2Proof.Machine


/-! # Encoding and decoding

A word's OP selects the command and its format, and the operands are the word's fields (spec/30_encoding.md R101 to
R105). So both directions are about one function, which gives a command the operands of a word. -/

namespace Sys2Proof

/-! ## The operands of a word -/

/-- The command `i` with the operands that the word `w` holds. -/
def Instr.withOperands (w : Word32) : Instr → Instr
  | .gmul2 _ => .gmul2 (aField w)
  | .gmul3 _ => .gmul3 (aField w)
  | .gmul _ _ => .gmul (aField w) (bField w)
  | .sboxlu _ => .sboxlu (aField w)
  | .addrk _ => .addrk (nField w)
  | i => i

/-- OP selects the command, and the word gives the operands (R105). -/
theorem decode_eq_checkZeroBits_withOperands {w : Word32} {i : Instr} (hop : opField w = opField (encode i)) :
    decode w = checkZeroBits w (i.withOperands w) := by
  cases i with
  | gmul2 | gmul3 | sboxlu =>
    rw [encode, opField_wordFA] at hop
    simp [decode, hop, Instr.withOperands]
  | gmul =>
    rw [encode, opField_wordFAB] at hop
    simp [decode, hop, Instr.withOperands]
  | addrk =>
    rw [encode, opField_wordFN] at hop
    simp [decode, hop, Instr.withOperands]
  | nop | ldkey | enc | clrkey | ldst | subb | shrow | mixcol | stst => exact decode_of_f0 rfl hop

/-! ## Decoding an encoded command -/

/-- The encoder puts the operands where the field readers look. -/
theorem Instr.withOperands_encode {i : Instr} (hi : i.wellFormed = true) : i.withOperands (encode i) = i := by
  cases i with
  | gmul2 | gmul3 | sboxlu => simp only [withOperands, encode, aField_wordFA]
  | gmul => simp only [withOperands, encode, aField_wordFAB, bField_wordFAB]
  | addrk n => rw [withOperands, encode, nField_wordFN n _ (by simpa [wellFormed] using hi)]
  | nop | ldkey | enc | clrkey | ldst | subb | shrow | mixcol | stst => rfl

/-- The encoder never sets a must-be-zero bit (R102). -/
theorem encode_and_mustBeZeroMask (i : Instr) : encode i &&& mustBeZeroMask i.format = 0#32 := by
  cases i with
  | gmul2 a | gmul3 a | sboxlu a => exact Laws.ReservedBits.highBits_wordFA a _
  | gmul a b => exact Laws.ReservedBits.highBits_wordFAB b a _
  | addrk n => exact Laws.ReservedBits.highBits_wordFN n _
  | nop | ldkey | enc | clrkey | ldst | subb | shrow | mixcol | stst => decide

/-- Settles O19: the word's own OP selects the command, its operands are the command's, and its must-be-zero bits are
zero. -/
theorem decodeOfEncode : Obligations.DecodeOfEncode := by
  intro i hi
  rw [decode_eq_checkZeroBits_withOperands rfl, Instr.withOperands_encode hi]
  exact (checkZeroBits_eq_ok_iff _ i i).2 ⟨rfl, encode_and_mustBeZeroMask i⟩

/-- Settles O18: each word of V-ENC is the encoding of its command. -/
theorem commandWordsDecode : Obligations.CommandWordsDecode :=
  ⟨decodeOfEncode .nop rfl, decodeOfEncode .ldkey rfl, decodeOfEncode .enc rfl, decodeOfEncode .clrkey rfl,
    decodeOfEncode (.gmul2 0x57#8) rfl, decodeOfEncode (.gmul3 0x57#8) rfl, decodeOfEncode (.gmul 0x57#8 0x83#8) rfl,
    decodeOfEncode (.gmul 0x00#8 0xFF#8) rfl, decodeOfEncode (.sboxlu 0x53#8) rfl, decodeOfEncode .ldst rfl,
    decodeOfEncode .subb rfl, decodeOfEncode .shrow rfl, decodeOfEncode .mixcol rfl, decodeOfEncode (.addrk 10) rfl,
    decodeOfEncode (.addrk 11) rfl, decodeOfEncode .stst rfl⟩

/-! ## Encoding a decoded word -/

/-- A word with bits 31:16 zero is the encoding, in format FA, of its A and OP (R102). -/
theorem eq_wordFA_of_upper_eq_zero {w : Word32} (h : w.extractLsb' 16 16 = 0#16) :
    w = wordFA (aField w) (opField w) := by
  calc w = w.extractLsb' 16 16 ++ w.extractLsb' 8 8 ++ w.extractLsb' 0 8 := by
        ext i hi
        grind
    _ = wordFA (aField w) (opField w) := by rw [h]; rfl

/-- A word with bits 31:24 zero is the encoding, in format FAB, of its B, A and OP (R102). -/
theorem eq_wordFAB_of_upper_eq_zero {w : Word32} (h : w.extractLsb' 24 8 = 0#8) :
    w = wordFAB (bField w) (aField w) (opField w) := by
  calc w = w.extractLsb' 24 8 ++ w.extractLsb' 16 8 ++ w.extractLsb' 8 8 ++ w.extractLsb' 0 8 := by
        ext i hi
        grind
    _ = wordFAB (bField w) (aField w) (opField w) := by rw [h]; rfl

/-- A word that passes both checks of R105 for the command `i` is the encoding of `i` with the word's operands. -/
theorem encode_withOperands {w : Word32} {i : Instr} (hop : opField w = opField (encode i))
    (hzero : w &&& mustBeZeroMask i.format = 0#32) : encode (i.withOperands w) = w := by
  rw [and_mustBeZeroMask_eq_zero_iff] at hzero
  cases i with
  | gmul2 | gmul3 | sboxlu =>
    rw [encode, opField_wordFA] at hop
    rw [Instr.withOperands, encode, ← hop, ← eq_wordFA_of_upper_eq_zero hzero]
  | gmul =>
    rw [encode, opField_wordFAB] at hop
    rw [Instr.withOperands, encode, ← hop, ← eq_wordFAB_of_upper_eq_zero hzero]
  | addrk =>
    rw [encode, opField_wordFN] at hop
    rw [Instr.withOperands, encode, ← hop, ← eq_wordFN_of_upper_eq_zero hzero]
  | nop | ldkey | enc | clrkey | ldst | subb | shrow | mixcol | stst =>
    rw [encode, opField_wordF0] at hop
    dsimp only [Instr.withOperands]
    rw [encode, ← hop, ← eq_wordF0_of_upper_eq_zero hzero]

/-- The operands of a decoded command are the word's. -/
theorem withOperands_of_decode {w : Word32} {i : Instr} (h : decode w = .ok i) : i.withOperands w = i := by
  obtain ⟨hop, -⟩ := opField_and_zeroBits_of_decode h
  rw [decode_eq_checkZeroBits_withOperands hop, checkZeroBits_eq_ok_iff] at h
  exact h.1

/-- Four bits hold N (R103). -/
theorem Instr.wellFormed_withOperands (w : Word32) (i : Instr) : (i.withOperands w).wellFormed = true := by
  cases i with
  | addrk => exact decide_eq_true (w.extractLsb' 8 4).isLt
  | nop | ldkey | enc | clrkey | gmul2 | gmul3 | gmul | sboxlu | ldst | subb | shrow | mixcol | stst => rfl

/-- Settles O20: a decoded word passed both checks of R105, and the command has the word's operands. -/
theorem encodeOfDecode : Obligations.EncodeOfDecode := by
  intro w i h
  obtain ⟨hop, hzero⟩ := opField_and_zeroBits_of_decode h
  have henc := encode_withOperands hop hzero
  have hwf := i.wellFormed_withOperands w
  rw [withOperands_of_decode h] at henc hwf
  exact ⟨henc, hwf⟩

/-! ## The rows of the opcode table -/

theorem mask_and_opMask : ∀ r ∈ opcodeRows, r.mask &&& 0x000000FF#32 = 0x000000FF#32 := by decide

/-- No two rows have the same OP. -/
theorem eq_of_matchBits_and_opMask : ∀ r ∈ opcodeRows, ∀ r' ∈ opcodeRows,
    r.matchBits &&& 0x000000FF#32 = r'.matchBits &&& 0x000000FF#32 → r = r' := by decide

/-- A row's pattern fixes the OP of a word. -/
theorem matchBits_and_opMask {w : Word32} {r : OpcodeRow} (hr : r ∈ opcodeRows) (h : w &&& r.mask = r.matchBits) :
    r.matchBits &&& 0x000000FF#32 = w &&& 0x000000FF#32 := by
  rw [← h, BitVec.and_assoc, mask_and_opMask r hr]

/-- Settles O21: a word that decodes has a row and conversely, and a word of two rows has the OP of both. -/
theorem wordsDecodeByOneTableRow : Obligations.WordsDecodeByOneTableRow := by
  refine ⟨fun w => ⟨fun ⟨_, h⟩ => exists_matching_row_of_decode h,
    fun ⟨_, hr, h⟩ => exists_decode_of_matching_row hr h⟩,
    fun w r hr r' hr' h h' => eq_of_matchBits_and_opMask r hr r' hr' ?sameOp⟩
  rw [matchBits_and_opMask hr h, matchBits_and_opMask hr' h']

end Sys2Proof

/-! # Steps

One step is one event (spec/20_memory.md R81): what an event may write (spec/10_state.md R51), the invariant that every
event keeps (R50), and how a pending operation ends (spec/70_reset_and_hazards.md R286, R288). -/

namespace Sys2Proof.Machine

/-! ## A step is an event (R81) -/

theorem step_of_inbox_nil {s : State} (h : s.inbox = []) : step s = engineTurn s := by
  simp only [step, h]

theorem step_of_inbox_cons {s : State} {e : Event} {es : List Event} (h : s.inbox = e :: es) :
    step s = applyEvent e (s.setInbox es) := by
  simp only [step, h]

theorem State.setInbox_of_eq {s : State} {es : List Event} (h : s.inbox = es) : s.setInbox es = s := by
  subst h
  rfl

/-- The event of the next step: the oldest of the inbox, or the ENGINE's turn when none is left (R288). -/
def State.nextEvent (s : State) : Event := s.inbox.headD .engine

theorem step_eq_applyEvent (s : State) : step s = applyEvent s.nextEvent (s.setInbox s.inbox.tail) := by
  cases h : s.inbox with
  | nil =>
    rw [step_of_inbox_nil h, State.nextEvent, h, List.tail_nil, State.setInbox_of_eq h, List.headD_nil, applyEvent]
  | cons e es => rw [step_of_inbox_cons h, State.nextEvent, h, List.tail_cons, List.headD_cons]

theorem State.nextEvent_eq_reset_iff (s : State) : s.nextEvent = .reset ↔ s.inbox.head? = some .reset := by
  rw [State.nextEvent]
  cases s.inbox with
  | nil => simp
  | cons e es => simp

/-- Settles O1: the first event of the inbox decides, and an ENGINE turn with a command that decodes is `exec`. -/
theorem stepRunsOneEvent : Obligations.StepRunsOneEvent := by
  refine ⟨fun s => step_of_inbox_nil, fun s es => step_of_inbox_cons, fun s es size off v => step_of_inbox_cons,
    fun s es size off h => ?read, fun s w i hp hd h => ?idle, fun s w i es hp hd h => ?turn⟩
  case read => rw [step_of_inbox_cons h, applyEvent, State.readValue_setInbox]
  case idle => rw [step_of_inbox_nil h, engineTurn_of_decode hp hd]
  case turn => exact (step_of_inbox_cons h).trans (engineTurn_of_decode hp hd)

/-- Settles O8: every event answers next. -/
theorem everyStepAnswersNext : Obligations.EveryStepAnswersNext := fun s => by
  rw [step_eq_applyEvent]
  exact applyEvent_next _ _

/-! ## What an operation writes (R51) -/

/-- From `s` to `t` no element changes but those of the list. -/
def WritesOnly (xs : List Element) (s t : State) : Prop := ∀ x ∉ xs, x.same s t

theorem Element.same_refl (x : Element) (s : State) : x.same s s := by cases x <;> rfl

theorem Element.same_trans {x : Element} {s t u : State} (hst : x.same s t) (htu : x.same t u) : x.same s u := by
  cases x <;> exact Eq.trans htu hst

theorem WritesOnly.refl (xs : List Element) (s : State) : WritesOnly xs s s := fun x _ => x.same_refl s

theorem WritesOnly.mono {xs ys : List Element} {s t : State} (h : WritesOnly xs s t) (hsub : xs ⊆ ys) :
    WritesOnly ys s t := fun x hx => h x fun hmem => hx (hsub hmem)

/-- Two operations one after the other write what the one or the other writes. -/
theorem WritesOnly.trans {xs ys : List Element} {s t u : State} (hst : WritesOnly xs s t) (htu : WritesOnly ys t u) :
    WritesOnly (xs ++ ys) s u := fun x hx =>
  Element.same_trans (hst x fun h => hx (List.mem_append_left ys h)) (htu x fun h => hx (List.mem_append_right xs h))

section
variable (s : State)

theorem State.retire_writesOnly : WritesOnly [.pend] s s.retire := fun x hx => by
  cases x with
  | pend => exact absurd (by decide) hx
  | _ => rfl

theorem State.setRes_writesOnly (v : Byte) : WritesOnly [.res] s (s.setRes v) := fun x hx => by
  cases x with
  | res => exact absurd (by decide) hx
  | _ => rfl

theorem State.setState_writesOnly (b : Block) : WritesOnly [.state] s (s.setState b) := fun x hx => by
  cases x with
  | state => exact absurd (by decide) hx
  | _ => rfl

theorem State.setDout_writesOnly (b : Block) : WritesOnly [.dout] s (s.setDout b) := fun x hx => by
  cases x with
  | dout => exact absurd (by decide) hx
  | _ => rfl

theorem State.consumeDin_writesOnly : WritesOnly [.dinFill] s s.consumeDin := fun x hx => by
  cases x with
  | dinFill => exact absurd (by decide) hx
  | _ => rfl

theorem State.installSbox_writesOnly (t : SboxTable) : WritesOnly [.sbox, .sboxValid] s (s.installSbox t) :=
  fun x hx => by
    cases x with
    | sbox | sboxValid => exact absurd (by decide) hx
    | _ => rfl

theorem State.installKey_writesOnly (r : Schedule) : WritesOnly [.rk, .keyValid] s (s.installKey r) := fun x hx => by
  cases x with
  | rk | keyValid => exact absurd (by decide) hx
  | _ => rfl

theorem State.clearKey_writesOnly : WritesOnly [.rk, .keyValid, .state, .din, .dinFill, .dout] s s.clearKey :=
  fun x hx => by
    cases x with
    | rk | keyValid | state | din | dinFill | dout => exact absurd (by decide) hx
    | _ => rfl

/-- The array and the bits written are variables here so that comparing the two states does not compute them. -/
theorem State.exists_writeDin_eq (k : Fin 4) (v : Word32) :
    ∃ (d : Block) (f : BitVec 4), s.writeDin k v = { s with din := d, dinFill := f } := ⟨_, _, rfl⟩

theorem State.writeDin_writesOnly (k : Fin 4) (v : Word32) : WritesOnly [.din, .dinFill] s (s.writeDin k v) := by
  obtain ⟨d, f, heq⟩ := s.exists_writeDin_eq k v
  rw [heq]
  intro x hx
  cases x with
  | din | dinFill => exact absurd (by decide) hx
  | _ => rfl

theorem State.accept_writesOnly (w : Word32) : WritesOnly [.pend] s (s.accept w) := fun x hx => by
  cases x with
  | pend => exact absurd (by decide) hx
  | _ => rfl

theorem State.clearError_writesOnly : WritesOnly [.err, .errInfo] s s.clearError := fun x hx => by
  cases x with
  | err | errInfo => exact absurd (by decide) hx
  | _ => rfl

theorem State.raise_writesOnly (e : ErrCause) (info : Word32) : WritesOnly [.err, .errInfo] s (s.raise e info) :=
  fun x hx => by
    rw [State.raise_eq_afterError]
    cases x with
    | err | errInfo => exact absurd (by decide) hx
    | _ => rfl

theorem State.failCommand_writesOnly (e : ErrCause) (w : Word32) :
    WritesOnly [.err, .errInfo, .pend] s (s.failCommand e w) :=
  (s.raise_writesOnly e w).trans (State.retire_writesOnly _)

theorem State.reply_writesOnly (w : Word32) : WritesOnly [] s (s.reply w) := fun x _ => by cases x <;> rfl

theorem State.gen_writesOnly : WritesOnly [.sbox, .sboxValid, .pend] s s.gen :=
  (s.installSbox_writesOnly _).trans (State.retire_writesOnly _)

/-! ## What a command writes -/

/-- A command whose checks pass writes its row without the error registers. -/
theorem performed_writesOnly (i : Instr) : WritesOnly (commandMayWrite i) s (performed i s) := by
  cases i with
  | nop => exact s.retire_writesOnly
  | ldkey =>
    exact (((s.installKey_writesOnly _).trans (State.consumeDin_writesOnly _)).trans
      (State.retire_writesOnly _)).mono (by decide)
  | enc =>
    exact ((((s.setState_writesOnly _).trans (State.setDout_writesOnly _ _)).trans
      (State.consumeDin_writesOnly _)).trans (State.retire_writesOnly _)).mono (by decide)
  | clrkey => exact s.clearKey_writesOnly.trans (State.retire_writesOnly _)
  | gmul2 | gmul3 | gmul | sboxlu => exact (s.setRes_writesOnly _).trans (State.retire_writesOnly _)
  | ldst =>
    exact (((s.setState_writesOnly _).trans (State.consumeDin_writesOnly _)).trans
      (State.retire_writesOnly _)).mono (by decide)
  | subb | shrow | mixcol => exact (s.setState_writesOnly _).trans (State.retire_writesOnly _)
  | addrk => exact ((s.setState_writesOnly _).trans (State.retire_writesOnly _)).mono (by simp [commandMayWrite])
  | stst => exact (s.setDout_writesOnly _).trans (State.retire_writesOnly _)

/-- Only a command with checks of its own can fail, and its row has the error registers. -/
theorem failCommand_writesOnly_of_failedCheck {i : Instr} {e : ErrCause} (h : failedCheck i s = some e) (w : Word32) :
    WritesOnly (commandMayWrite i) s (s.failCommand e w) := by
  refine (s.failCommand_writesOnly e w).mono ?_
  cases i with
  | ldkey | enc | ldst | addrk => simp [commandMayWrite]
  | _ => cases h

theorem exec_writesOnly {i : Instr} {t : State} (ht : exec i s = .next t) : WritesOnly (commandMayWrite i) s t := by
  cases hcheck : failedCheck i s with
  | none =>
    cases (exec_of_passed hcheck).symm.trans ht
    exact performed_writesOnly s i
  | some e =>
    cases (exec_of_failedCheck hcheck).symm.trans ht
    exact failCommand_writesOnly_of_failedCheck s hcheck _

end

/-! ## What an event writes -/

theorem engineTurn_writesOnly {s t : State} (ht : engineTurn s = .next t) : WritesOnly (engineMayWrite s) s t := by
  rcases engineTurn_cases s with ⟨-, hturn⟩ | ⟨hp, -⟩ | ⟨w, r, hp, hd, hturn⟩ | ⟨w, i, hp, hd, hturn⟩
  · cases hturn.symm.trans ht
    exact WritesOnly.refl _ s
  · obtain rfl := Host.Outcome.next.inj ((engineTurn_of_gen hp).symm.trans ht)
    rw [engineMayWrite, hp]
    exact s.gen_writesOnly
  · cases hturn.symm.trans ht
    simp only [engineMayWrite, hp, hd]
    exact s.failCommand_writesOnly .illegal w
  · simp only [engineMayWrite, hp, hd]
    exact exec_writesOnly s (hturn.symm.trans ht)

theorem State.readEffect_writesOnly (s : State) (size : Nat) (off : Offset) :
    WritesOnly ((Event.read size off).mayWrite s) s (s.readEffect size off) := by
  rw [Event.mayWrite, State.readEffect]
  simp only [accessDefined_eq_true]
  split_ifs
  · exact WritesOnly.refl [] s
  · exact s.raise_writesOnly .access _

/-- The row "host bad access" is part of every write's row. -/
theorem error_subset_writeMayWrite (size : Nat) (off : Offset) : [.err, .errInfo] ⊆ writeMayWrite size off := by
  unfold writeMayWrite
  split_ifs <;> decide

theorem State.writeCmd_writesOnly (s : State) (v : Word32) : WritesOnly [.err, .errInfo, .pend] s (s.writeCmd v) := by
  rw [State.writeCmd]
  split_ifs
  · exact WritesOnly.refl _ s
  · exact (s.raise_writesOnly .busy _).mono (by decide)
  · exact (s.accept_writesOnly v).mono (by decide)

theorem State.writeDinReg_writesOnly (s : State) (k : Fin 4) (off : Offset) (v : Word32) :
    WritesOnly [.din, .dinFill, .err, .errInfo] s (s.writeDinReg k off v) := by
  rw [State.writeDinReg]
  split_ifs
  · exact (s.raise_writesOnly .busy _).mono (by decide)
  · exact (s.writeDin_writesOnly k v).mono (by decide)

/-- The offset of a DIN word has the row "host write DINk". -/
theorem writeMayWrite_din : ∀ k : Fin 4,
    writeMayWrite 4 (BitVec.ofNat 10 (0x020 + 4 * k.val)) = [.din, .dinFill, .err, .errInfo] := by decide

theorem State.writeReg_writesOnly (s : State) {r : Reg} {off : Offset} (hr : r.offset? = some off ∨ r = .reserved)
    (v : Word32) : WritesOnly (writeMayWrite 4 off) s (s.writeReg r off v) := by
  cases r with
  | cmd =>
    obtain rfl : 0x000#10 = off := by simpa [Reg.offset?] using hr
    exact s.writeCmd_writesOnly v
  | din k =>
    obtain rfl : BitVec.ofNat 10 (0x020 + 4 * k.val) = off := by simpa [Reg.offset?] using hr
    rw [writeMayWrite_din]
    exact s.writeDinReg_writesOnly k _ v
  | err => exact s.clearError_writesOnly.mono (error_subset_writeMayWrite 4 off)
  | status | errInfo | res | id | dout | rk | sb | reserved =>
    exact (s.raise_writesOnly .access _).mono (error_subset_writeMayWrite 4 off)

theorem State.write_writesOnly (s : State) (size : Nat) (off : Offset) (v : Word32) :
    WritesOnly (writeMayWrite size off) s (s.write size off v) := by
  cases hd : accessDefined size off with
  | false =>
    rw [s.write_of_undefined v hd, ← State.raise_eq_afterError]
    exact (s.raise_writesOnly .access _).mono (error_subset_writeMayWrite size off)
  | true =>
    obtain ⟨rfl, halign⟩ := (accessDefined_eq_true size off).1 hd
    rw [s.write_of_aligned v halign]
    exact s.writeReg_writesOnly (Reg.offset?_atOffset halign) v

theorem applyEvent_writesOnly {e : Event} {s t : State} (ht : applyEvent e s = .next t) :
    WritesOnly (e.mayWrite s) s t := by
  cases e with
  | engine => exact engineTurn_writesOnly ht
  | read size off =>
    cases ht
    exact ((s.readEffect_writesOnly size off).trans (State.reply_writesOnly _ _)).mono (by simp)
  | write size off v =>
    cases ht
    exact s.write_writesOnly size off v
  | reset =>
    have hall : ∀ x, x ∈ Event.reset.mayWrite s := fun x => by cases x <;> simp [Event.mayWrite]
    exact fun x hx => absurd (hall x) hx

/-- The rows of the host accesses, taken together. -/
theorem Event.mayWrite_subset_of_isAccess {e : Event} (he : e.isAccess = true) (s : State) :
    e.mayWrite s ⊆ [.din, .dinFill, .err, .errInfo, .pend] := by
  cases e with
  | read size off =>
    rw [Event.mayWrite]
    split_ifs <;> decide
  | write size off v =>
    rw [Event.mayWrite, writeMayWrite]
    split_ifs <;> decide
  | engine | reset => cases he

theorem Event.not_mem_mayWrite_of_isAccess {e : Event} (he : e.isAccess = true) (s : State) {x : Element}
    (hx : x ∉ [.din, .dinFill, .err, .errInfo, .pend]) : x ∉ e.mayWrite s :=
  fun h => hx (Event.mayWrite_subset_of_isAccess he s h)

/-- Settles O7: each event writes what the operations it is made of write. -/
theorem eventsWriteOnlyTheirElements : Obligations.EventsWriteOnlyTheirElements :=
  fun _ _ _ x ht => applyEvent_writesOnly ht x

/-! ## The S-box after GEN (R32) -/

theorem sbox_not_mem_commandMayWrite (i : Instr) :
    .sbox ∉ commandMayWrite i ∧ .sboxValid ∉ commandMayWrite i := by
  cases i <;> simp [commandMayWrite]

/-- In the columns SBOX and SBOX_VALID the writer table has cells for GEN and reset only. -/
theorem sbox_not_mem_mayWrite {e : Event} {s : State} (hreset : e ≠ .reset) (hp : s.pend ≠ .gen) :
    .sbox ∉ e.mayWrite s ∧ .sboxValid ∉ e.mayWrite s := by
  cases e with
  | engine =>
    rw [Event.mayWrite, engineMayWrite]
    split
    case h_1 => simp
    case h_2 hgen => exact absurd hgen hp
    case h_3 w _ =>
      split
      · simp
      · exact sbox_not_mem_commandMayWrite _
  | read | write =>
    exact ⟨Event.not_mem_mayWrite_of_isAccess rfl s (by decide), Event.not_mem_mayWrite_of_isAccess rfl s (by decide)⟩
  | reset => exact absurd rfl hreset

/-- Settles O10: under the invariant GEN is not pending once the S-box is valid, and the writer table does the rest. -/
theorem sboxFixedAfterGen : Obligations.SboxFixedAfterGen := by
  intro s t hinv hvalid ht hreset
  rw [step_eq_applyEvent] at ht
  have hp : s.pend ≠ .gen := fun hgen => by simp [hinv.validIffGenDone.2 hgen] at hvalid
  obtain ⟨hsbox, hsboxValid⟩ := sbox_not_mem_mayWrite (e := s.nextEvent) (s := s.setInbox s.inbox.tail)
    (mt s.nextEvent_eq_reset_iff.1 hreset) hp
  exact ⟨applyEvent_writesOnly ht .sbox hsbox, (applyEvent_writesOnly ht .sboxValid hsboxValid).trans hvalid⟩

/-! ## The key within a session (R35) -/

/-- While a key is loaded, only the command CLRKEY or reset changes it, and both clear it. -/
theorem applyEvent_key_cases {e : Event} {s t : State} (hkey : s.keyValid = true) (ht : applyEvent e s = .next t) :
    (t.rk = s.rk ∧ t.keyValid = s.keyValid) ∨
    (t.rk = Vector.replicate 176 0x00#8 ∧ t.keyValid = false ∧ (e = .reset ∨ s.pend = .cmd 0x00000003#32)) := by
  cases e with
  | engine =>
    rcases engineTurn_cases s with ⟨-, hturn⟩ | ⟨-, hturn⟩ | ⟨w, r, -, -, hturn⟩ | ⟨w, i, hp, hd, hturn⟩
    · cases hturn.symm.trans ht
      exact .inl ⟨rfl, rfl⟩
    · obtain rfl := Host.Outcome.next.inj (hturn.symm.trans ht)
      exact .inl ⟨by simp, by simp⟩
    · cases hturn.symm.trans ht
      exact .inl ⟨s.failCommand_rk _ _, s.failCommand_keyValid _ _⟩
    · rcases exec_key_cases i s t (hturn.symm.trans ht) with hsame | ⟨-, hnokey, -⟩ | ⟨rfl, hrk, hcleared⟩
      · exact .inl hsame
      · exact absurd hkey (Bool.eq_false_iff.1 hnokey)
      · obtain ⟨rfl, -⟩ := encodeOfDecode w .clrkey hd
        exact .inr ⟨hrk, hcleared, .inr hp⟩
  | read | write =>
    exact .inl ⟨applyEvent_writesOnly ht .rk (Event.not_mem_mayWrite_of_isAccess rfl s (by decide)),
      applyEvent_writesOnly ht .keyValid (Event.not_mem_mayWrite_of_isAccess rfl s (by decide))⟩
  | reset =>
    cases ht
    exact .inr ⟨rfl, rfl, .inl rfl⟩

/-- Settles O11: the event of the step, and what it does to the key. -/
theorem keyFixedWithinSession : Obligations.KeyFixedWithinSession := by
  intro s t hkey ht
  rw [step_eq_applyEvent] at ht
  have hcases := applyEvent_key_cases (s := s.setInbox s.inbox.tail) hkey ht
  rw [s.nextEvent_eq_reset_iff] at hcases
  exact hcases.imp_left fun ⟨hrk, hvalid⟩ => ⟨hrk, hvalid.trans hkey⟩


/-! ## The invariant (R50) -/

section
variable {s : State}

/-- What the invariant says of the error registers. -/
def State.ErrorInv (s : State) : Prop := (s.err = 0#4 → s.errInfo = 0#32) ∧ s.err.toNat ≤ 8

theorem State.Inv.errorInv (hinv : s.Inv) : s.ErrorInv := ⟨hinv.noErrNoInfo, hinv.errDefined⟩

/-- `raise` writes a defined code (R241), or nothing. -/
theorem State.ErrorInv.raise (hinv : s.ErrorInv) (e : ErrCause) (info : Word32) : (s.raise e info).ErrorInv := by
  by_cases h : s.err = 0#4
  · rw [s.raise_of_clear e info h]
    exact ⟨fun hzero => absurd hzero e.code_ne_zero, e.code_le⟩
  · rwa [s.raise_of_recorded e info h]

/-- A change that keeps the S-box and the key, and is on the same side of GEN: what is left to show of the invariant. -/
theorem State.Inv.congr {t : State} (hinv : s.Inv) (hsbox : t.sbox = s.sbox) (hvalid : t.sboxValid = s.sboxValid)
    (hrk : t.rk = s.rk) (hkey : t.keyValid = s.keyValid) (hpend : t.pend = .gen ↔ s.pend = .gen)
    (hfill : t.pend = .gen → t.dinFill = 0b0000#4) (herror : t.ErrorInv) : t.Inv where
  validIffGenDone := by rw [hvalid, hpend]; exact hinv.validIffGenDone
  sboxZero := by rw [hvalid, hsbox]; exact hinv.sboxZero
  sboxIsTable := by rw [hvalid, hsbox]; exact hinv.sboxIsTable
  rkZero := by rw [hkey, hrk]; exact hinv.rkZero
  rkIsSchedule := by rw [hkey, hrk, hsbox]; exact hinv.rkIsSchedule
  noErrNoInfo := herror.1
  errDefined := herror.2
  keyAfterGen := by rw [hkey, hvalid]; exact hinv.keyAfterGen
  noFillBeforeGen := hfill

theorem State.Inv.setInbox (hinv : s.Inv) (es : List Event) : (s.setInbox es).Inv :=
  hinv.congr rfl rfl rfl rfl Iff.rfl hinv.noFillBeforeGen hinv.errorInv

theorem State.Inv.reply (hinv : s.Inv) (w : Word32) : (s.reply w).Inv :=
  hinv.congr rfl rfl rfl rfl Iff.rfl hinv.noFillBeforeGen hinv.errorInv

theorem State.Inv.setRes (hinv : s.Inv) (v : Byte) : (s.setRes v).Inv :=
  hinv.congr rfl rfl rfl rfl Iff.rfl hinv.noFillBeforeGen hinv.errorInv

theorem State.Inv.setState (hinv : s.Inv) (b : Block) : (s.setState b).Inv :=
  hinv.congr rfl rfl rfl rfl Iff.rfl hinv.noFillBeforeGen hinv.errorInv

theorem State.Inv.setDout (hinv : s.Inv) (b : Block) : (s.setDout b).Inv :=
  hinv.congr rfl rfl rfl rfl Iff.rfl hinv.noFillBeforeGen hinv.errorInv

theorem State.Inv.consumeDin (hinv : s.Inv) : s.consumeDin.Inv :=
  hinv.congr rfl rfl rfl rfl Iff.rfl (fun _ => rfl) hinv.errorInv

theorem State.Inv.raise (hinv : s.Inv) (e : ErrCause) (info : Word32) : (s.raise e info).Inv :=
  hinv.congr (s.raise_sbox e info) (s.raise_sboxValid e info) (s.raise_rk e info) (s.raise_keyValid e info)
    (by rw [s.raise_pend e info]) (by rw [s.raise_pend, s.raise_dinFill]; exact hinv.noFillBeforeGen)
    (hinv.errorInv.raise e info)

theorem State.Inv.clearError (hinv : s.Inv) : s.clearError.Inv :=
  hinv.congr rfl rfl rfl rfl Iff.rfl hinv.noFillBeforeGen ⟨fun _ => rfl, Nat.zero_le 8⟩

theorem State.Inv.accept (hinv : s.Inv) (hp : s.pend = .none) (w : Word32) : (s.accept w).Inv :=
  hinv.congr rfl rfl rfl rfl (by simp [hp]) (fun hgen => nomatch hgen) hinv.errorInv

theorem State.Inv.writeDin (hinv : s.Inv) (hp : s.pend = .none) (k : Fin 4) (v : Word32) : (s.writeDin k v).Inv := by
  obtain ⟨d, f, heq⟩ := s.exists_writeDin_eq k v
  rw [heq]
  exact hinv.congr rfl rfl rfl rfl Iff.rfl (fun hgen => nomatch hp.symm.trans hgen) hinv.errorInv

theorem State.Inv.retire (hinv : s.Inv) (hp : s.pend ≠ .gen) : s.retire.Inv :=
  hinv.congr rfl rfl rfl rfl (iff_of_false Pend.noConfusion hp) (fun hgen => nomatch hgen) hinv.errorInv

theorem State.Inv.failCommand (hinv : s.Inv) (hp : s.pend ≠ .gen) (e : ErrCause) (w : Word32) :
    (s.failCommand e w).Inv :=
  (hinv.raise e w).retire (by rwa [s.raise_pend e w])

theorem State.Inv.clearKey (hinv : s.Inv) : s.clearKey.Inv :=
  { hinv with
    rkZero := fun _ => rfl
    rkIsSchedule := fun h => nomatch h
    keyAfterGen := fun h => nomatch h
    noFillBeforeGen := fun _ => rfl }

theorem State.Inv.installKey (hinv : s.Inv) (hvalid : s.sboxValid = true) {r : Schedule}
    (hr : r = expand s.sbox (roundKey r 0)) : (s.installKey r).Inv :=
  { hinv with
    rkZero := fun h => nomatch h
    rkIsSchedule := fun _ => hr
    keyAfterGen := fun _ => hvalid }

/-- The schedule that LDKEY installs is that of its own first sixteen bytes. -/
theorem expand_roundKey_expand (t : SboxTable) (key : Block) :
    expand t key = expand t (roundKey (expand t key) 0) := by
  obtain ⟨-, hkey⟩ := roundKeyZeroIsMasterKey
  rw [hkey t key]

/-- Before GEN no key is loaded, so no schedule of the old table stays behind. -/
theorem State.Inv.gen (hinv : s.Inv) (hp : s.pend = .gen) : s.gen.Inv := by
  rw [State.gen_eq_sboxTable]
  exact
    { hinv with
      validIffGenDone := iff_of_false Bool.noConfusion Pend.noConfusion
      sboxZero := fun h => nomatch h
      sboxIsTable := fun _ => rfl
      rkIsSchedule := fun hkey => nomatch (hinv.keyValid_of_gen hp).symm.trans hkey
      keyAfterGen := fun _ => rfl
      noFillBeforeGen := fun h => nomatch h }

theorem State.Inv.sboxValid_of_gen_done (hinv : s.Inv) (hp : s.pend ≠ .gen) : s.sboxValid = true :=
  Bool.eq_true_of_not_eq_false fun h => hp (hinv.validIffGenDone.1 h)

/-- The schedule is a variable here so that comparing two states does not run the expansion. -/
theorem State.Inv.retire_consumeDin_installKey (hinv : s.Inv) (hp : s.pend ≠ .gen) {r : Schedule}
    (hr : r = expand s.sbox (roundKey r 0)) : (s.installKey r).consumeDin.retire.Inv :=
  (hinv.installKey (hinv.sboxValid_of_gen_done hp) hr).consumeDin.retire hp

theorem State.Inv.performed (hinv : s.Inv) (hp : s.pend ≠ .gen) (i : Instr) : (performed i s).Inv := by
  cases i with
  | nop => exact hinv.retire hp
  | ldkey =>
    exact hinv.retire_consumeDin_installKey hp (expand_roundKey_expand _ _)
  | enc => exact ((hinv.setState _).setDout _).consumeDin.retire (by simpa)
  | clrkey => exact hinv.clearKey.retire (by simpa)
  | gmul2 | gmul3 | gmul | sboxlu => exact (hinv.setRes _).retire (by simpa)
  | ldst => exact (hinv.setState _).consumeDin.retire (by simpa)
  | subb | shrow | mixcol | addrk => exact (hinv.setState _).retire (by simpa)
  | stst => exact (hinv.setDout _).retire (by simpa)

theorem State.Inv.exec (hinv : s.Inv) (hp : s.pend ≠ .gen) {i : Instr} {t : State} (ht : exec i s = .next t) :
    t.Inv := by
  cases hcheck : failedCheck i s with
  | none =>
    cases (exec_of_passed hcheck).symm.trans ht
    exact hinv.performed hp i
  | some e =>
    cases (exec_of_failedCheck hcheck).symm.trans ht
    exact hinv.failCommand hp e _

theorem State.Inv.engineTurn (hinv : s.Inv) {t : State} (ht : engineTurn s = .next t) : t.Inv := by
  rcases engineTurn_cases s with ⟨-, hturn⟩ | ⟨hp, -⟩ | ⟨w, r, hp, -, hturn⟩ | ⟨w, i, hp, -, hturn⟩
  · cases hturn.symm.trans ht
    exact hinv
  · obtain rfl := Host.Outcome.next.inj ((engineTurn_of_gen hp).symm.trans ht)
    exact hinv.gen hp
  · cases hturn.symm.trans ht
    exact hinv.failCommand (by simp [hp]) .illegal w
  · exact hinv.exec (by simp [hp]) (hturn.symm.trans ht)

theorem State.Inv.afterError (hinv : s.Inv) (e : ErrCause) (info : Word32) : (afterError s e info).Inv := by
  rw [← State.raise_eq_afterError]
  exact hinv.raise e info

theorem State.Inv.readEffect (hinv : s.Inv) (size : Nat) (off : Offset) : (s.readEffect size off).Inv := by
  rcases s.readEffect_cases size off with ⟨-, heff⟩ | ⟨-, heff⟩
  · rwa [heff]
  · rw [heff]
    exact hinv.afterError .access _

theorem State.Inv.write (hinv : s.Inv) (size : Nat) (off : Offset) (v : Word32) : (s.write size off v).Inv := by
  rcases s.write_cases size off v with hw | ⟨e, info, hw⟩ | ⟨hp, -, hw⟩ | ⟨hw, -, -⟩ | ⟨k, hp, -, hw⟩ <;> rw [hw]
  · exact hinv
  · exact hinv.afterError e info
  · exact hinv.accept hp v
  · exact hinv.clearError
  · exact hinv.writeDin hp k v

theorem State.Inv.applyEvent (hinv : s.Inv) {e : Event} {t : State} (ht : applyEvent e s = .next t) : t.Inv := by
  cases e with
  | engine => exact hinv.engineTurn ht
  | read size off =>
    cases ht
    exact (hinv.readEffect size off).reply _
  | write size off v =>
    cases ht
    exact hinv.write size off v
  | reset =>
    cases ht
    exact s.assertReset_inv

end

/-- Settles O5: one lemma per operation on the state; the commands, the accesses and GEN are made of these. -/
theorem stepKeepsStateInvariant : Obligations.StepKeepsStateInvariant := by
  intro s t hinv ht
  rw [step_eq_applyEvent] at ht
  exact (hinv.setInbox _).applyEvent ht

/-- Settles O4: the state after reset, with any events to come, is one that the reset input leaves. -/
theorem reachableInvariantAtReset : Obligations.ReachableInvariantAtReset :=
  fun es => (State.reset.setInbox es).assertReset_inv

/-- Settles O6: by induction on the steps from reset. -/
theorem reachableStatesSatisfyInvariant : Obligations.ReachableStatesSatisfyInvariant := by
  intro s hs
  induction hs with
  | reset es => exact reachableInvariantAtReset es
  | step s t _ ht ih => exact stepKeepsStateInvariant s t ih ht

/-! ## While an operation is pending (R286, R288) -/

/-- No access ends a pending operation or reaches its operands or results (R73, R84). -/
theorem applyEvent_of_isAccess {e : Event} {s : State} (he : e.isAccess = true) (hp : s.pend ≠ .none) :
    ∃ (c : BitVec 4) (x : Word32) (rs : List Word32),
      applyEvent e s = .next { s with err := c, errInfo := x, replies := rs } := by
  cases e with
  | read size off =>
    rw [applyEvent]
    rcases s.readEffect_cases size off with ⟨-, heff⟩ | ⟨-, heff⟩ <;> rw [heff]
    · exact ⟨s.err, s.errInfo, _, rfl⟩
    · exact ⟨_, _, _, rfl⟩
  | write size off v =>
    obtain ⟨c, x, hw⟩ := s.write_of_busy size off v hp
    exact ⟨c, x, s.replies, by rw [applyEvent, hw]⟩
  | engine | reset => cases he

theorem runSteps_succ {s t : State} (h : step s = .next t) (n : Nat) : runSteps (n + 1) s = runSteps n t := by
  simp only [runSteps, h]

/-- Settles O17: by induction on the accesses. -/
theorem staleReadsWhileBusy : Obligations.StaleReadsWhileBusy := by
  intro es rest s hes hp hinbox
  induction es generalizing s with
  | nil => exact ⟨s, rfl, rfl, hinbox, rfl, rfl, rfl, rfl, rfl, rfl, rfl, rfl, rfl⟩
  | cons e es ih =>
    obtain ⟨he, hes⟩ := List.forall_mem_cons.1 hes
    obtain ⟨c, x, rs, ht⟩ := applyEvent_of_isAccess (s := s.setInbox (es ++ rest)) he hp
    obtain ⟨t, hrun, hrest⟩ := ih { s.setInbox (es ++ rest) with err := c, errInfo := x, replies := rs } hes hp rfl
    rw [List.length_cons, runSteps_succ ((step_of_inbox_cons hinbox).trans ht)]
    exact ⟨t, hrun, hrest⟩

/-- An event does not reach the events after it. -/
theorem applyEvent_next_inbox (e : Event) (s : State) : ∃ t : State, applyEvent e s = .next t ∧ t.inbox = s.inbox := by
  cases e with
  | engine =>
    obtain ⟨t, ht, -, hinbox, -⟩ := engineTurn_next s
    exact ⟨t, ht, hinbox⟩
  | read size off =>
    refine ⟨_, rfl, ?_⟩
    rcases s.readEffect_cases size off with ⟨-, heff⟩ | ⟨-, heff⟩ <;> rw [heff] <;> rfl
  | write size off v =>
    refine ⟨_, rfl, ?_⟩
    rcases s.write_cases size off v with hw | ⟨e, info, hw⟩ | ⟨-, -, hw⟩ | ⟨hw, -, -⟩ | ⟨k, -, -, hw⟩ <;> rw [hw]
    · rfl
    · rfl
    · rfl
    · exact s.writeDin_inbox k v
  | reset => exact ⟨_, rfl, rfl⟩

/-- Each step uses up one event of the inbox; the step after the last is the ENGINE's turn, which leaves it idle. -/
theorem exists_runSteps_idle (s : State) :
    ∃ t : State, runSteps (s.inbox.length + 1) s = .next t ∧ t.pend = .none := by
  induction hes : s.inbox generalizing s with
  | nil =>
    obtain ⟨t, ht, hidle, -⟩ := engineTurn_next s
    exact ⟨t, runSteps_succ ((step_of_inbox_nil hes).trans ht) 0, hidle⟩
  | cons e es ih =>
    obtain ⟨t, ht, hinbox⟩ := applyEvent_next_inbox e (s.setInbox es)
    obtain ⟨u, hrun, hidle⟩ := ih t hinbox
    exact ⟨u, (runSteps_succ ((step_of_inbox_cons hes).trans ht) _).trans hrun, hidle⟩

/-- Settles O9: the bound itself is a number of steps that suffices. -/
theorem pendingOperationCompletes : Obligations.PendingOperationCompletes := by
  refine ⟨fun s _ => ?completes, fun e s t he hp ht => ?access⟩
  case completes =>
    obtain ⟨t, hrun, hidle⟩ := exists_runSteps_idle s
    exact ⟨s.inbox.length + 1, t, Nat.le_refl _, hrun, hidle⟩
  case access =>
    obtain ⟨c, x, rs, hnext⟩ := applyEvent_of_isAccess he hp
    cases hnext.symm.trans ht
    rfl

end Sys2Proof.Machine

/-! # Several engines

An access is an event of the one engine whose window holds its address (spec/60_exceptions.md R256, spec/20_memory.md
R79). -/

namespace Sys2Proof.Machine

/-- An engine whose window does not hold the address takes no event. -/
theorem Platform.access_other {p q : Platform} {a : BusAccess} {k : Nat} (h : p.access a = .next q)
    (hk : engineAt p.engines.length a.addr ≠ some k) : q.engines[k]? = p.engines[k]? := by
  rcases p.access_cases a with ⟨-, hnone⟩ | ⟨j, s, t, hj, -, -, hsome⟩
  · cases hnone.symm.trans h
    rfl
  · cases hsome.symm.trans h
    have hjk : j ≠ k := fun h => hk (h ▸ hj)
    exact List.getElem?_set_ne hjk

/-- The engine whose window holds the address takes the access as its event. -/
theorem Platform.exists_access_of_engineAt {p : Platform} {a : BusAccess} {k : Nat} {s t : State}
    (hk : engineAt p.engines.length a.addr = some k) (hs : p.engines[k]? = some s)
    (ht : applyEvent (a.toEvent k) s = .next t) :
    ∃ q : Platform, p.access a = .next q ∧ q.engines[k]? = some t :=
  ⟨_, Platform.access_of_engineAt hk hs ht,
    List.getElem?_set_self ((engineAt_eq_some_iff _ _ _).1 hk).1⟩

/-- The address at an offset in an engine's window reaches that engine. -/
theorem engineAt_base_add {p : Platform} {k : Nat} {s : State} (hs : p.engines[k]? = some s) (off : Offset) :
    engineAt p.engines.length (Config.base k + off.toNat) = some k :=
  (engineAt_eq_some_iff _ _ _).2 ⟨(List.getElem?_eq_some_iff.1 hs).1, inWindow_base_add k off⟩

/-- Settles O59: the windows do not overlap, and an access is one event of at most one engine. -/
theorem enginesAreIndependent : Obligations.EnginesAreIndependent := by
  refine ⟨Platform.access_next, fun p q a k => Platform.access_other, fun p q a k s t hq hk hs ht => ?taken,
    fun p k size off v s hs => ⟨?read, ?write⟩, fun n k addr => ?engineAt, fun j k addr => inWindow_unique,
    fun k off => ⟨Nat.mul_mod_right 0x400 _, inWindow_base_add k off, windowOffset_base_add k off⟩⟩
  case taken =>
    obtain ⟨q', hq', ht'⟩ := Platform.exists_access_of_engineAt hk hs ht
    cases hq'.symm.trans hq
    exact ht'
  case read =>
    exact Platform.exists_access_of_engineAt (engineAt_base_add hs off) hs
      (by rw [BusAccess.toEvent, windowOffset_base_add, applyEvent])
  case write =>
    exact Platform.exists_access_of_engineAt (engineAt_base_add hs off) hs
      (by rw [BusAccess.toEvent, windowOffset_base_add, applyEvent])
  case engineAt => rw [engineAt_eq_some_iff, inWindow_eq_true_iff]

end Sys2Proof.Machine

/-! # The wait loop

Two host steps: a read of STATUS, and a jump back while it shows BUSY (spec/30_encoding.md R111). -/

namespace Sys2Proof.Machine

/-! ## One host operation -/

theorem System.hostTurn_of_rd {y : System} {off x : Nat} (h : y.host.program[y.host.next]? = some (.rd off x)) :
    y.hostTurn =
      { host := { y.host with
          next := y.host.next + 1
          vars := (x, y.engine.memReadValue off y.host.vars.length) :: y.host.vars }
        engine := y.engine.memReadEffect off } := by
  simp only [System.hostTurn, h]

theorem System.hostTurn_of_beq {y : System} {x label : Nat} {mask val : Word32}
    (h : y.host.program[y.host.next]? = some (.beq x mask val label)) :
    y.hostTurn =
      { y with host := { y.host with next := if y.host.value x &&& mask = val then label else y.host.next + 1 } } := by
  simp only [System.hostTurn, h]

/-! ## The poll -/

/-- The mask of the loop's `beq` reads BUSY. -/
theorem State.statusWord_and_one (s : State) : s.statusWord &&& 0x1#32 = 0x1#32 ↔ s.pend ≠ .none := by
  have hone : 0x1#32 = (0#31).concat true := rfl
  rw [← State.busy_eq_true, State.statusWord_eq_concat, hone, BitVec.concat_and_concat, BitVec.and_zero,
    Bool.and_true]
  cases s.busy <;> decide

/-- A host read of STATUS (R46, R72). -/
theorem State.memRead_status (s : State) (n : Nat) :
    s.memReadEffect 0x004 = s ∧ s.memReadValue 0x004 n = s.statusWord :=
  s.memRead_of_aligned 0x004#10 n rfl

/-- Settles O60: the read puts STATUS into the variable, and the jump looks at its BUSY bit. -/
theorem waitLoopFollowsBusy : Obligations.WaitLoopFollowsBusy := by
  rintro y pos t rfl hrd hbeq
  obtain ⟨heffect, hvalue⟩ := y.engine.memRead_status y.host.vars.length
  have hread := System.hostTurn_of_rd hrd
  rw [heffect, hvalue] at hread
  rw [hread, System.hostTurn_of_beq hbeq]
  refine ⟨rfl, ?next⟩
  simp only [HostAgent.value_cons, if_true, State.statusWord_and_one, ne_eq, ite_not]

end Sys2Proof.Machine
